-- ==== Sys2Proof/Word.lean ====
section
/-! DEFINITION. The word types of XKDF-1: bytes, the 32-bit host word, the 3-bit slot index and byte
strings of a fixed length (00_scope.md R8, R9; 20_memory.md R51). -/

namespace Sys2Proof

/-- A byte: 8 bits, bit 7 most significant (R8, R9). -/
abbrev Byte := BitVec 8

/-- The data word of one port H transaction (R51: `h_wdata[31:0]`, `h_rdata[31:0]`). -/
abbrev Word := BitVec 32

/-- The word index `w` on `h_addr[2:0]` (R36, R51). The byte offset is `4 * w`. -/
abbrev Slot := BitVec 3

/-- A byte string of length `n`, indexed `B[0]` to `B[n-1]`, `B[0]` the first byte written (R8). -/
abbrev Bytes (n : Nat) := Vector Byte n

/-- `0^n`: the byte string of `n` zero bytes (R8). -/
abbrev zeros (n : Nat) : Bytes n := Vector.replicate n 0

end Sys2Proof
end

