-- ==== Sys2Proof/Config.lean ====
section
/-! DEFINITION. What XKDF-1 fixes about its register window (00_scope.md R6; 10_state.md R36; 20_memory.md
R51, R55) and the one parameter the spec leaves open, the block cipher `AESENC` (00_scope.md R7, decision
D28). The numeric constants of the algorithm stand beside the operations that use them. -/

namespace Sys2Proof.Config

/-- IBUFBYTES = 32, the capacity of IBUF (R6). -/
abbrev ibufBytes : Nat := 32

/-- Slot 0, ID, read-only (R36). -/
abbrev slotId : Slot := 0
/-- Slot 1, STATUS, read-only (R36). -/
abbrev slotStatus : Slot := 1
/-- Slot 2, CMD, write-only (R36, R80). -/
abbrev slotCmd : Slot := 2
/-- Slot 3, DIN, write-only (R36, R80). -/
abbrev slotDin : Slot := 3
/-- Slot 4, ILEN, read-only (R36). -/
abbrev slotIlen : Slot := 4

/-- The size in bytes of the register window, offsets 0x00 to 0x1F (R55). -/
abbrev windowBytes : Nat := 32

/-- The size in bytes of the only access port H knows (R10, R51: "no other size exists"). -/
abbrev accessBytes : Nat := 4

/-- Which of the two KDF input blocks: the `j` of `block(j, N1)` and `X(j, K1, N1)` (R107, R108). -/
inductive KdfBlock where
  | first
  | second
  deriving DecidableEq, Repr

/-- The AES-256 block cipher, the one OPEN parameter of the spec (R7, D28): a total function of key
and block and of nothing else. It has no body here, so no proof can lean on a value of it, and every
claim holds whatever cipher the engine computes. DESIGN CHOICE of its form: assumption log 5. -/
opaque AESENC : Bytes 32 → Bytes 16 → Bytes 16

end Sys2Proof.Config
end

