-- ==== Sys2Proof/Syntax.lean ====
section
/-! DEFINITION. The instructions of the block, one constructor per row of spec/opcode_table.json
(30_encoding.md R84), the decoder's reasons for refusing a word, and the host program notation of
30_encoding.md R87, R88. -/

namespace Sys2Proof

/-- The host operations. The five commands carry no operand (R83); PUSH carries the byte `v[7:0]` of
its DIN word, the other 24 bits being ignored (R82, R120). -/
inductive Instr where
  /-- LOADKEY, OPC 0x01 (R123). -/
  | loadkey
  /-- DERIVE_SEAL, OPC 0x02 (R124). -/
  | deriveSeal
  /-- DERIVE_OPEN, OPC 0x03 (R125). -/
  | deriveOpen
  /-- FLUSH, OPC 0x04 (R126). -/
  | flush
  /-- ZEROIZE, OPC 0x05 (R127). -/
  | zeroize
  /-- PUSH, a write of slot 3 (R120). -/
  | push (b : Byte)
  deriving DecidableEq, Repr

/-- Why the decoder gives no instruction for a port H write. -/
inductive Reject where
  /-- A CMD word with a reserved bit set or with a code outside 1 to 5 (R85). -/
  | illegalCommand
  /-- A slot that has no word format: 0, 1, 4, 5, 6, 7 (R53, R80). -/
  | noFormat
  deriving DecidableEq, Repr

/-- One line of a host program (R87, R88). -/
inductive HostLine where
  /-- `WR CMD, <mnemonic>`, and `WR DIN, #<hex byte>` for a push. -/
  | wrOp (i : Instr)
  /-- `WR CMD, #<hex>`: any CMD word, for illegal commands. -/
  | wrCmdWord (v : Word)
  /-- `WR <w>, #<hex>`, written as `MemWrite(addr, size, v)` (R10, R53). -/
  | memWrite (addr size : Nat) (v : Word)
  /-- `RD ID`, `RD STATUS`, `RD ILEN`, written as `MemRead(addr, size)` (R10, R52). -/
  | memRead (addr size : Nat)
  /-- `PUSHS`: one push per byte, byte 0 first. -/
  | pushs (bytes : List Byte)
  /-- `WAIT`: poll STATUS until BUSY = 0; it implies ENGINE. -/
  | wait
  /-- `TAKE`: the consumer performs `Deliver`. -/
  | take
  /-- `RESET`: the reset input is asserted. -/
  | reset
  /-- `ENGINE`: the engine performs all acceptances and answers that are enabled, until none is. -/
  | engine
  deriving DecidableEq, Repr

end Sys2Proof
end

