-- ==== Sys2Proof/WellFormed.lean ====
section
/-! DEFINITION. Well-formedness of instructions and of host program lines. No instruction can be
ill-formed: no command has an operand (30_encoding.md R83) and every DIN word is legal (R82). A memory
access line is well-formed exactly when it can be expressed on port H: a whole aligned word inside the
32-byte window (00_scope.md R10, 20_memory.md R51, R55, R56). -/

namespace Sys2Proof

/-- Every instruction is well-formed (R82, R83). -/
def Instr.wellFormed : Instr → Bool
  | .loadkey | .deriveSeal | .deriveOpen | .flush | .zeroize => true
  | .push _ => true

/-- An access port H can carry: 4 bytes (R10, R51), word-aligned (R56), inside the window (R55). -/
def accessWellFormed (addr size : Nat) : Bool :=
  decide (size = Config.accessBytes) && decide (addr % 4 = 0) && decide (addr < Config.windowBytes)

/-- Only the two memory access lines can be ill-formed. -/
def HostLine.wellFormed : HostLine → Bool
  | .wrOp i => i.wellFormed
  | .memWrite addr size _ => accessWellFormed addr size
  | .memRead addr size => accessWellFormed addr size
  | .wrCmdWord _ | .pushs _ | .wait | .take | .reset | .engine => true

end Sys2Proof
end

