-- ==== Sys2Proof/Decode.lean ====
section
/-! DEFINITION. The decoder, total on every slot and word and rejecting by name (30_encoding.md R80 to
R86); the opcode table's rows; and the encoder, written from the encoding tables of R81, R82 and R84. -/

namespace Sys2Proof

/-- Format CMD (R81, R86): the reserved bits are tested first, then the code. -/
def decodeCmd (v : Word) : Except Reject Instr :=
  if v.extractLsb' 8 24 ≠ 0 then .error .illegalCommand
  else
    match v.extractLsb' 0 8 with
    | 0x01#8 => .ok .loadkey
    | 0x02#8 => .ok .deriveSeal
    | 0x03#8 => .ok .deriveOpen
    | 0x04#8 => .ok .flush
    | 0x05#8 => .ok .zeroize
    | _ => .error .illegalCommand

/-- Format DIN (R82): bits 7:0 are the byte, bits 31:8 are ignored. -/
def decodeDin (v : Word) : Instr := .push (v.extractLsb' 0 8)

/-- The decoder of a port H write. The slot selects the format, not any bit of the word (R80). -/
def decode (w : Slot) (v : Word) : Except Reject Instr :=
  if w = Config.slotCmd then decodeCmd v
  else if w = Config.slotDin then .ok (decodeDin v)
  else .error .noFormat

/-- One row of spec/opcode_table.json: the slot its word is written to, its mask and its match. -/
structure TableRow where
  slot : Slot
  mask : Word
  pattern : Word
  deriving DecidableEq, Repr

/-- The row of each instruction (R84, R86). -/
def Instr.row : Instr → TableRow
  | .loadkey => ⟨Config.slotCmd, 0xFFFFFFFF, 0x00000001⟩
  | .deriveSeal => ⟨Config.slotCmd, 0xFFFFFFFF, 0x00000002⟩
  | .deriveOpen => ⟨Config.slotCmd, 0xFFFFFFFF, 0x00000003⟩
  | .flush => ⟨Config.slotCmd, 0xFFFFFFFF, 0x00000004⟩
  | .zeroize => ⟨Config.slotCmd, 0xFFFFFFFF, 0x00000005⟩
  | .push _ => ⟨Config.slotDin, 0x00000000, 0x00000000⟩

/-- The word `v` written to slot `w` matches the row (R86). -/
def TableRow.accepts (r : TableRow) (w : Slot) (v : Word) : Bool :=
  decide (w = r.slot) && decide (v &&& r.mask = r.pattern)

/-- The slot and the word of an instruction: the CMD word of R84, or `zext_32(byte)` on slot 3 (R87). -/
def encode : Instr → Slot × Word
  | .loadkey => (Config.slotCmd, 0x00000001)
  | .deriveSeal => (Config.slotCmd, 0x00000002)
  | .deriveOpen => (Config.slotCmd, 0x00000003)
  | .flush => (Config.slotCmd, 0x00000004)
  | .zeroize => (Config.slotCmd, 0x00000005)
  | .push b => (Config.slotDin, b.setWidth 32)

/-- The slot a word of spec/opcode_table.json is written to. The table's word carries no slot, so a
word that matches a CMD row is taken as that row's and every other word as PUSH's, the one row whose
mask is 0. DESIGN CHOICE: assumption log 9. -/
def tableSlot (v : Word) : Slot :=
  match decodeCmd v with
  | .ok _ => Config.slotCmd
  | .error _ => Config.slotDin

/-- The instruction of a table word of `nbits` bits, numbered with bit 0 least significant (log 9). -/
def decodeTableWord (nbits w : Nat) : Option Instr :=
  if nbits ≤ 32 then
    if w < 2 ^ nbits then (decode (tableSlot (BitVec.ofNat 32 w)) (BitVec.ofNat 32 w)).toOption
    else none
  else none

end Sys2Proof
end

