-- ==== Sys2Proof/Machine/State.lean ====
section
/-! DEFINITION. The state of the machine as plain data: the block's registers, flags, code fields and
phase (10_state.md R20 to R34), the engine's outstanding request (R35), and the model's own two lists,
the environment's scheduled events and the record of what crossed the ports. The reasons a step can
stop, and the state after reset (R42). -/

namespace Sys2Proof.Machine

/-- The eight values of the phase register PH, in the order of their codes 0 to 7 (R33). -/
inductive Phase where
  | idle
  | initReq
  | initWait
  | drv1Req
  | drv1Wait
  | drv2Req
  | drv2Wait
  | fault
  deriving DecidableEq, Repr

/-- A request `AesReq(key, block)` that the engine has captured (R35, R60). -/
structure AesRequest where
  key : Bytes 32
  block : Bytes 16
  deriving DecidableEq, Repr

/-- What an agent outside the block does next (00_scope.md section 6; 20_memory.md R66). -/
inductive Event where
  /-- The host writes `v` to slot `w` on port H (R53). -/
  | hostWrite (w : Slot) (v : Word)
  /-- The host reads slot `w` on port H (R52). -/
  | hostRead (w : Slot)
  /-- The engine gives `a_req_ready = 1` (R60). -/
  | aesAccept
  /-- The engine answers the request it holds, keeping its contract (R63). -/
  | aesAnswer
  /-- `a_resp_valid = 1` with any 16 bytes on `a_resp_data`: an answer that need not keep the contract (R62, R63, E1). -/
  | aesResp (r : Bytes 16)
  /-- The consumer gives `g_ready = 1` (R65). -/
  | take
  /-- The reset input is asserted (R215). -/
  | reset
  deriving DecidableEq, Repr

/-- What has crossed a port. -/
inductive PortEvent where
  /-- `MemWrite(4*w, 4, v)`. -/
  | hostWrite (w : Slot) (v : Word)
  /-- `MemRead(4*w, 4)` returned `data` on `h_rdata`. -/
  | hostRead (w : Slot) (data : Word)
  /-- `AesReq(key, block)`. -/
  | aesReq (key : Bytes 32) (block : Bytes 16)
  /-- `AesResp(r)`. -/
  | aesResp (r : Bytes 16)
  /-- `Deliver(dk, n2)`. -/
  | deliver (dk : Bytes 32) (n2 : Bytes 12)
  /-- The reset event. -/
  | reset
  deriving DecidableEq, Repr

/-- The machine. The first twelve fields are the whole state of the block (R20). -/
structure State where
  /-- IBUF, 32 bytes (R21). -/
  ibuf : Bytes 32
  /-- ILEN, 6 bits (R22). -/
  ilen : BitVec 6
  /-- MK, 32 bytes (R23). (The name `mk` is Lean's, for the constructor.) -/
  masterKey : Bytes 32
  /-- K1, 16 bytes (R24). -/
  k1 : Bytes 16
  /-- NONCE, 24 bytes (R25). -/
  nonce : Bytes 24
  /-- DK, 32 bytes (R26). -/
  dk : Bytes 32
  /-- KV (R28). -/
  kv : Bool
  /-- DKV (R29). -/
  dkv : Bool
  /-- OVR (R30). -/
  ovr : Bool
  /-- ERR, 4 bits (R31). -/
  err : BitVec 4
  /-- FCAUSE, 4 bits (R32). -/
  fcause : BitVec 4
  /-- PH (R33). -/
  ph : Phase
  /-- The request the engine has accepted and not yet answered, outside the block (R35). -/
  engine : Option AesRequest
  /-- The model's own: what the agents outside the block do from here on, next event first (assumption log 1). -/
  agenda : List Event
  /-- The model's own: what crossed the ports, latest first (assumption log 4). -/
  trace : List PortEvent
  deriving DecidableEq, Repr

/-- The reasons a step can stop with a fault. No instruction raises one. -/
inductive Fault where
  /-- Raised by `step` alone, when PH = 7 and no further event is scheduled: R199 asks that FAULT be the
  fault outcome of the step function, never a final state. Safe: nothing that could happen is cut off,
  since every event of the agenda, reset among them, is still processed in FAULT (assumption log 2). -/
  | faultPhase (cause : BitVec 4)
  deriving DecidableEq, Repr

/-- The reasons a step can be refused. -/
inductive Refusal where
  /-- Raised by an arm of exec for an instruction that has no meaning yet, by mnemonic. Safe. No arm raises it now. -/
  | notModelled (mnemonic : String)
  deriving DecidableEq, Repr

/-- The state after reset: every register, flag and code field zero and PH = 0 (R42, R215); the engine
holds no request (R217); the model's own lists empty (assumption logs 1 and 4). -/
def State.reset : State where
  ibuf := zeros 32
  ilen := 0
  masterKey := zeros 32
  k1 := zeros 16
  nonce := zeros 24
  dk := zeros 32
  kv := false
  dkv := false
  ovr := false
  err := 0
  fcause := 0
  ph := .idle
  engine := none
  agenda := []
  trace := []

end Sys2Proof.Machine
end

