-- ==== Sys2Proof/Machine/ByteString.lean ====
section
/-! DEFINITION. Byte strings as integers and as buses (00_scope.md R8, R9) and their slices. -/

namespace Sys2Proof.Machine

/-- `int(B)`, the sum of `B[i] * 256^(n-1-i)`: byte 0 most significant (R9). -/
def byteInt {n : Nat} (B : Bytes n) : Nat :=
  B.toList.foldl (fun acc b => acc * 256 + b.toNat) 0

/-- The byte string on its 8n-bit bus, byte 0 in the most significant bits (R9). -/
def bus {n : Nat} (B : Bytes n) : BitVec (8 * n) := BitVec.ofNat (8 * n) (byteInt B)

/-- The byte string a bus value carries: the inverse of `bus` (R9). -/
def ofBus {n : Nat} (x : BitVec (8 * n)) : Bytes n :=
  Vector.ofFn fun i => x.extractLsb' (8 * (n - 1 - i.val)) 8

/-- `B[start .. start+len-1]` (R8). -/
def slice {n : Nat} (B : Bytes n) (start len : Nat) (h : start + len ≤ n := by decide) : Bytes len :=
  Vector.ofFn fun i => B[start + i.val]

/-- `A || B`, A first (R8). -/
def joinBytes {m n k : Nat} (A : Bytes m) (B : Bytes n) (h : m + n = k := by decide) : Bytes k :=
  Vector.ofFn fun i => if hi : i.val < m then A[i.val] else B[i.val - m]

/-- `N1`, the first 12 nonce bytes (R25). -/
def nonceN1 (N : Bytes 24) : Bytes 12 := slice N 0 12

/-- `N2`, the last 12 nonce bytes (R25). -/
def nonceN2 (N : Bytes 24) : Bytes 12 := slice N 12 12

end Sys2Proof.Machine
end

