-- ==== Sys2Proof/Machine/Doubler.lean ====
section
/-! DEFINITION. The pure functions of the block: the doubler in GF(2^128), the XOR, the two KDF input
blocks, and the two functions the sequencer computes (40_doubler_and_blocks.md R100 to R111). -/

namespace Sys2Proof.Machine

/-- RED = 0x87, the reduction constant of the doubling, as the 128-bit integer 135 (R5, R101). -/
abbrev reduction : BitVec 128 := 0x87

/-- HDR1 = 00 01 58 00 and HDR2 = 00 02 58 00, in index order (R106). -/
def header : Config.KdfBlock → Bytes 4
  | .first => #v[0x00, 0x01, 0x58, 0x00]
  | .second => #v[0x00, 0x02, 0x58, 0x00]

/-- `dbl` in the integer form (R101): shift left by one, and XOR 0x87 when bit 127 was set. It is
irreducible so that comparing two states never unfolds it; a proof about its value says `unfold dbl`. -/
@[irreducible] def dbl (L : Bytes 16) : Bytes 16 :=
  let n : BitVec 128 := bus L
  ofBus (n := 16) ((n <<< 1) ^^^ (if n.getLsbD 127 then reduction else 0))

/-- `dbl` in the byte form (R102), as a circuit on bytes computes it. -/
def dblBytes (L : Bytes 16) : Bytes 16 :=
  Vector.ofFn fun (i : Fin 16) =>
    if h : i.val < 15 then (L[i.val] <<< 1) ||| (L[i.val + 1] >>> 7)
    else (L[15] <<< 1) ^^^ (if L[0].getLsbD 7 then 0x87 else 0x00)

/-- The inverse of `dbl` (R103 (e)): undo the XOR if bit 0 of the last byte is set, shift right by one
across bytes, put that bit into bit 7 of byte 0. -/
def dblInverse (D : Bytes 16) : Bytes 16 :=
  let n : BitVec 128 := bus D
  let m := n.getLsbD 0
  ofBus (n := 16) (((n ^^^ (if m then reduction else 0)) >>> 1) ||| (if m then 1 <<< 127 else 0))

/-- `xor16`, bytewise (R104). -/
def xor16 (A B : Bytes 16) : Bytes 16 := Vector.ofFn fun i => A[i.val] ^^^ B[i.val]

/-- `ZB = 0^16`, the block of the request that LOADKEY causes (R109). -/
def zeroBlock : Bytes 16 := zeros 16

/-- `block(j, N1)`: the header of block `j`, then N1 (R107). -/
def kdfBlock (j : Config.KdfBlock) (N1 : Bytes 12) : Bytes 16 := joinBytes (header j) N1

/-- `X(j, K1, N1)`, the block as sent to the engine (R108). -/
def kdfInput (j : Config.KdfBlock) (K1 : Bytes 16) (N1 : Bytes 12) : Bytes 16 :=
  xor16 (kdfBlock j N1) K1

/-- `subkey(MK)` (R110). -/
def subkey (MK : Bytes 32) : Bytes 16 := dbl (Config.AESENC MK zeroBlock)

/-- `derive(MK, K1, N)`: the DerivedKey and the GCM nonce (R111). -/
def derive (MK : Bytes 32) (K1 : Bytes 16) (N : Bytes 24) : Bytes 32 × Bytes 12 :=
  (joinBytes (Config.AESENC MK (kdfInput .first K1 (nonceN1 N)))
    (Config.AESENC MK (kdfInput .second K1 (nonceN1 N))), nonceN2 N)

end Sys2Proof.Machine
end

