-- ==== Sys2Proof/Machine/Operands.lean ====
section
/-! DEFINITION. The operands of the host operations and of the sequencer's requests, all implicit
(30_encoding.md R83; 42_sequencer_steps.md R162), and the store of a pushed byte (41_host_commands.md R120). -/

namespace Sys2Proof.Machine

/-- KEYBYTES = 32 (R5), as the 6-bit value ILEN is compared with (R105). -/
abbrev keyLength : BitVec 6 := 32

/-- NONCEBYTES = 24 (R5), as the 6-bit value ILEN is compared with (R105). -/
abbrev nonceLength : BitVec 6 := 24

/-- ILENMAX = 63, where ILEN saturates (R6, R22). -/
abbrev ilenMax : BitVec 6 := 63

/-- LOADKEY's operand, `IBUF[0..31]` (R83, R123). -/
def keyOperand (s : State) : Bytes 32 := s.ibuf

/-- The operand of both derive commands, `IBUF[0..23]` (R83, R124). -/
def nonceOperand (s : State) : Bytes 24 := slice s.ibuf 0 24

/-- `if ILEN < 32 then IBUF[ILEN] <- b` (R22, R120): the 33rd and later pushes store nothing. -/
def storedByte (s : State) (b : Byte) : Bytes 32 :=
  if h : s.ilen.toNat < Config.ibufBytes then s.ibuf.set s.ilen.toNat b h else s.ibuf

/-- `if ILEN < 63 then ILEN <- ILEN + 1`, the saturating count (R22, R105 (c)). -/
def countedPush (s : State) : BitVec 6 :=
  if s.ilen < ilenMax then s.ilen + 1 else s.ilen

/-- X1 or X2, taken from the registers at the moment of use (R108). -/
def requestX (j : Config.KdfBlock) (s : State) : Bytes 16 := kdfInput j s.k1 (nonceN1 s.nonce)

/-- `DK[0..15] <- r` (R154). Irreducible, as `dbl` is, so that comparing two states never unfolds it. -/
@[irreducible] def withLowHalf (dk : Bytes 32) (r : Bytes 16) : Bytes 32 := joinBytes r (slice dk 16 16)

/-- `DK[16..31] <- r` (R156). Irreducible, as `dbl` is. -/
@[irreducible] def withHighHalf (dk : Bytes 32) (r : Bytes 16) : Bytes 32 := joinBytes (slice dk 0 16) r

end Sys2Proof.Machine
end

