-- ==== Sys2Proof/Machine/Flags.lean ====
section
/-! DEFINITION. The codes of ERR and FCAUSE (10_state.md R31, R32; 60_exceptions.md R191), the code of
the phase register, BUSY and FAULT, and the STATUS word (10_state.md R33, R39). -/

namespace Sys2Proof.Machine

/-- The identification word of slot 0 (R38). -/
abbrev idWord : Word := 0x584B4401

/-- ERR = 0, OK. -/
abbrev errOk : BitVec 4 := 0
/-- ERR = 1, INVALID_KEY_LENGTH. -/
abbrev errInvalidKeyLength : BitVec 4 := 1
/-- ERR = 2, BAD_NONCE_LENGTH. -/
abbrev errBadNonceLength : BitVec 4 := 2
/-- ERR = 3, ILLEGAL_COMMAND. -/
abbrev errIllegalCommand : BitVec 4 := 3
/-- ERR = 4, NO_KEY. -/
abbrev errNoKey : BitVec 4 := 4
/-- ERR = 5, OUTPUT_PENDING. -/
abbrev errOutputPending : BitVec 4 := 5

/-- FCAUSE = 1, SEAL_NONCE_LENGTH, the only trap (R196). -/
abbrev causeSealNonceLength : BitVec 4 := 1

/-- The 3-bit value of PH (R33). -/
def Phase.code : Phase → BitVec 3
  | .idle => 0
  | .initReq => 1
  | .initWait => 2
  | .drv1Req => 3
  | .drv1Wait => 4
  | .drv2Req => 5
  | .drv2Wait => 6
  | .fault => 7

/-- "Busy" means PH is 1 to 6 (R33). -/
def Phase.busy : Phase → Bool
  | .idle | .fault => false
  | .initReq | .initWait | .drv1Req | .drv1Wait | .drv2Req | .drv2Wait => true

/-- PH = 7 (R39). -/
def Phase.isFault : Phase → Bool
  | .fault => true
  | .idle | .initReq | .initWait | .drv1Req | .drv1Wait | .drv2Req | .drv2Wait => false

/-- The STATUS word, field by field from bit 31 down (R39). -/
def statusWord (s : State) : Word :=
  (0#13 ++ s.ph.code ++ s.fcause ++ s.err ++ 0#3 ++ BitVec.ofBool s.ovr ++
    BitVec.ofBool s.ph.isFault ++ BitVec.ofBool s.dkv ++ BitVec.ofBool s.kv ++
    BitVec.ofBool s.ph.busy : BitVec 32)

end Sys2Proof.Machine
end

