-- ==== Sys2Proof/Machine/Ops.lean ====
section
/-! DEFINITION. The named operations the meanings share: the record of a port event, the gate by phase
(41_host_commands.md R120, R121, R129), `consume` (R122), raising a recoverable error (60_exceptions.md
R192), TAKING THE TRAP (R197) with the only way out of it beside it, reset (R200, R215), and the host
read (20_memory.md R52). -/

namespace Sys2Proof.Machine

/-- Records an event that crossed a port (assumption log 4). -/
def State.record (e : PortEvent) (s : State) : State := { s with trace := e :: s.trace }

/-- The gate every write of CMD and DIN passes (R120, R121, R129): in FAULT it is ignored, while busy it
is dropped and sets OVR, in IDLE it is examined. -/
def hostGate (examined : State → State) (s : State) : State :=
  match s.ph with
  | .fault => s
  | .idle => examined s
  | .initReq | .initWait | .drv1Req | .drv1Wait | .drv2Req | .drv2Wait => { s with ovr := true }

/-- `consume`: `IBUF <- 0^32; ILEN <- 0` (R122). -/
def State.consume (s : State) : State := { s with ibuf := zeros 32, ilen := 0 }

/-- `raise Error(code)`: `ERR <- code` and nothing else (R10, R192). -/
def State.raiseError (code : BitVec 4) (s : State) : State := { s with err := code }

/-- `raise Trap(cause)`, all at once (R197): everything is cleared, nothing is saved, the cause goes to
FCAUSE and the phase to FAULT. -/
def State.raiseTrap (cause : BitVec 4) (s : State) : State :=
  { s with
    ibuf := zeros 32, ilen := 0
    masterKey := zeros 32, k1 := zeros 16, nonce := zeros 24, dk := zeros 32
    kv := false, dkv := false, ovr := false, err := 0
    fcause := cause
    ph := .fault }

/-- The reset event (R215), the only way out of FAULT (R200): every register takes its reset value
(R42) and the engine forgets its request (R217). What the environment still does, and the record of
what crossed the ports, are no state of the block and stay (assumption log 8). -/
def State.applyReset (s : State) : State :=
  { State.reset with agenda := s.agenda, trace := s.trace }

/-- What FLUSH clears beside the input buffer (R126): the data of one call, ERR and OVR. -/
def State.dropCall (s : State) : State :=
  { s with nonce := zeros 24, dk := zeros 32, dkv := false, err := errOk, ovr := false }

/-- `MemRead(4*w, 4)` (R52). -/
def memRead (w : Slot) (s : State) : Word :=
  if w = Config.slotId then idWord
  else if w = Config.slotStatus then statusWord s
  else if w = Config.slotIlen then s.ilen.setWidth 32
  else 0

end Sys2Proof.Machine
end

