-- ==== Sys2Proof/Machine/Commands.lean ====
section
/-! DEFINITION. The five commands and the illegal command (41_host_commands.md R121 to R128). Each
meaning is the whole effect of the CMD write: the gate by phase, then the command as examined in IDLE. -/

namespace Sys2Proof.Machine

/-- LOADKEY examined in IDLE (R123). -/
def loadkeyExamined (s : State) : State :=
  if s.dkv then s.consume.raiseError errOutputPending
  else if s.ilen ≠ keyLength then s.consume.raiseError errInvalidKeyLength
  else
    { s.consume with
      masterKey := keyOperand s, k1 := zeros 16, kv := false, err := errOk, ph := .initReq }

/-- LOADKEY (R123). -/
def execLoadkey (s : State) : Host.Outcome State Fault Refusal :=
  .next (hostGate loadkeyExamined s)

/-- What both derive commands do once their checks have passed (R124, R125): the nonce is taken and the
derivation starts. -/
def startDerivation (s : State) : State :=
  { s.consume with nonce := nonceOperand s, err := errOk, ph := .drv1Req }

/-- The checks of both derive commands in their order (R201): the output, the key, then the length,
whose failure is the caller's. -/
def deriveExamined (wrongLength : State → State) (s : State) : State :=
  if s.dkv then s.consume.raiseError errOutputPending
  else if s.kv = false then s.consume.raiseError errNoKey
  else if s.ilen ≠ nonceLength then wrongLength s
  else startDerivation s

/-- DERIVE_SEAL (R124): a wrong length is the trap SEAL_NONCE_LENGTH (R196, R197). -/
def execDeriveSeal (s : State) : Host.Outcome State Fault Refusal :=
  .next (hostGate (deriveExamined (State.raiseTrap causeSealNonceLength)) s)

/-- DERIVE_OPEN (R125): a wrong length is the recoverable error BAD_NONCE_LENGTH (R194). -/
def execDeriveOpen (s : State) : Host.Outcome State Fault Refusal :=
  .next (hostGate (deriveExamined fun t => t.consume.raiseError errBadNonceLength) s)

/-- FLUSH (R126). -/
def execFlush (s : State) : Host.Outcome State Fault Refusal :=
  .next (hostGate (fun t => t.consume.dropCall) s)

/-- ZEROIZE (R127): everything FLUSH does, and the end of the key. -/
def execZeroize (s : State) : Host.Outcome State Fault Refusal :=
  .next (hostGate
    (fun t => { t.consume.dropCall with masterKey := zeros 32, k1 := zeros 16, kv := false }) s)

/-- An illegal CMD word (R85, R128): ILLEGAL_COMMAND and nothing else, no `consume`. It is no
instruction: the opcode table has no row for it (R86). -/
def execIllegalCommand (s : State) : Host.Outcome State Fault Refusal :=
  .next (hostGate (State.raiseError errIllegalCommand) s)

end Sys2Proof.Machine
end

