-- ==== Sys2Proof/Machine/Input.lean ====
section
/-! DEFINITION. PUSH (41_host_commands.md R120). -/

namespace Sys2Proof.Machine

/-- PUSH examined in IDLE: the byte is stored if there is room, and counted (R120). -/
def pushExamined (b : Byte) (s : State) : State :=
  { s with ibuf := storedByte s b, ilen := countedPush s }

/-- PUSH (R120). -/
def execPush (b : Byte) (s : State) : Host.Outcome State Fault Refusal :=
  .next (hostGate (pushExamined b) s)

end Sys2Proof.Machine
end

