-- ==== Sys2Proof/Machine/Dispatch.lean ====
section
/-! DEFINITION. One arm per instruction. -/

namespace Sys2Proof.Machine

def exec (i : Instr) (s : State) : Host.Outcome State Fault Refusal :=
  match i with
  | .loadkey => Sys2Proof.Machine.execLoadkey s
  | .deriveSeal => Sys2Proof.Machine.execDeriveSeal s
  | .deriveOpen => Sys2Proof.Machine.execDeriveOpen s
  | .flush => Sys2Proof.Machine.execFlush s
  | .zeroize => Sys2Proof.Machine.execZeroize s
  | .push b => Sys2Proof.Machine.execPush b s

end Sys2Proof.Machine
end

