-- ==== Sys2Proof/Machine/Ports.lean ====
section
/-! DEFINITION. The output signals of ports A and G as functions of the state (20_memory.md R59 to R61,
R64). Port H's `h_rdata` is `memRead`. -/

namespace Sys2Proof.Machine

/-- `a_req_valid = 1` exactly when PH is 1, 3 or 5 (R60). -/
def aReqValid (s : State) : Bool :=
  match s.ph with
  | .initReq | .drv1Req | .drv2Req => true
  | .idle | .initWait | .drv1Wait | .drv2Wait | .fault => false

/-- `a_key[255:0]`: MK while a request is presented, else zero (R60, R61). -/
def aKey (s : State) : BitVec 256 := if aReqValid s then bus s.masterKey else 0

/-- `a_block[127:0]`: the block of the phase while a request is presented, else zero (R60, R61). -/
def aBlock (s : State) : BitVec 128 :=
  match s.ph with
  | .initReq => bus zeroBlock
  | .drv1Req => bus (requestX .first s)
  | .drv2Req => bus (requestX .second s)
  | .idle | .initWait | .drv1Wait | .drv2Wait | .fault => 0

/-- `g_valid = DKV` (R64). -/
def gValid (s : State) : Bool := s.dkv

/-- `g_key[255:0]`: DK while DKV = 1, else zero (R64). -/
def gKey (s : State) : BitVec 256 := if gValid s then bus s.dk else 0

/-- `g_nonce[95:0]`: N2 while DKV = 1, else zero (R64). -/
def gNonce (s : State) : BitVec 96 := if gValid s then bus (nonceN2 s.nonce) else 0

end Sys2Proof.Machine
end

