-- ==== Sys2Proof/Machine/Sequencer.lean ====
section
/-! DEFINITION. The steps that are not host operations (42_sequencer_steps.md R150 to R158): the
engine's acceptance of a presented request, the arrival of an answer, and the delivery to the
consumer, each with the phase that enables it. -/

namespace Sys2Proof.Machine

/-- The event `AesReq(MK, block)` (R60): the engine captures key and block, the phase moves on, and
nothing else of the block changes. -/
def acceptRequest (block : Bytes 16) (next : Phase) (s : State) : State :=
  { s.record (.aesReq s.masterKey block) with engine := some ⟨s.masterKey, block⟩, ph := next }

/-- Step INIT_REQ (R151). -/
def seqInitReq (s : State) : State := acceptRequest zeroBlock .initWait s

/-- Step DRV1_REQ (R153). -/
def seqDrv1Req (s : State) : State := acceptRequest (requestX .first s) .drv1Wait s

/-- Step DRV2_REQ (R155). -/
def seqDrv2Req (s : State) : State := acceptRequest (requestX .second s) .drv2Wait s

/-- Step INIT_RESP (R152). -/
def seqInitResp (L : Bytes 16) (s : State) : State :=
  { s with k1 := dbl L, kv := true, ph := .idle }

/-- Step DRV1_RESP (R154). -/
def seqDrv1Resp (r : Bytes 16) (s : State) : State :=
  { s with dk := withLowHalf s.dk r, ph := .drv2Req }

/-- Step DRV2_RESP (R156). -/
def seqDrv2Resp (r : Bytes 16) (s : State) : State :=
  { s with dk := withHighHalf s.dk r, dkv := true, ph := .idle }

/-- The engine is ready (R60, R150): in phases 1, 3, 5 the presented request is accepted; in any other
phase `a_req_valid = 0` and there is no event. -/
def engineReady (s : State) : State :=
  match s.ph with
  | .initReq => seqInitReq s
  | .drv1Req => seqDrv1Req s
  | .drv2Req => seqDrv2Req s
  | .idle | .initWait | .drv1Wait | .drv2Wait | .fault => s

/-- What the block makes of an answer (R62): taken in phases 2, 4, 6, ignored in every other. -/
def takeAnswer (r : Bytes 16) (s : State) : State :=
  match s.ph with
  | .initWait => seqInitResp r s
  | .drv1Wait => seqDrv1Resp r s
  | .drv2Wait => seqDrv2Resp r s
  | .idle | .initReq | .drv1Req | .drv2Req | .fault => s

/-- The event `AesResp(r)` (R62): the answer crosses port A, whatever request the engine held is
answered, and the block takes it or ignores it. -/
def answerArrives (r : Bytes 16) (s : State) : State :=
  takeAnswer r { s.record (.aesResp r) with engine := none }

/-- The engine keeps its contract (R63): it answers the request it holds with `AESENC(key, block)`, and
without a request it produces no answer. -/
def engineAnswers (s : State) : State :=
  match s.engine with
  | none => s
  | some q => answerArrives (Config.AESENC q.key q.block) s

/-- Step DELIVER (R158), enabled when DKV = 1: the consumer takes DK and N2, and both registers are
cleared. With `g_valid = 0` a ready consumer takes nothing (R65). -/
def consumerReady (s : State) : State :=
  if s.dkv then
    { s.record (.deliver s.dk (nonceN2 s.nonce)) with
      dk := zeros 32, nonce := zeros 24, dkv := false }
  else s

end Sys2Proof.Machine
end

