-- ==== Sys2Proof/Machine/Events.lean ====
section
/-! DEFINITION. What one event of the environment does (20_memory.md R53, R66): a host write decoded and
executed, a host read, the engine's and the consumer's steps, reset; and what a step does when nothing
is scheduled. -/

namespace Sys2Proof.Machine

/-- `MemWrite(4*w, 4, v)` (R53, R121): slots 2 and 3 are decoded and executed, an illegal CMD word has the
effect of R128, and a write of any other slot is ignored in every phase. The phase test of R121 stands
at the head of every meaning, the illegal command's too, so a dropped or ignored write has the same
effect whatever its word (assumption log 10). -/
def memWrite (w : Slot) (v : Word) (s : State) : Host.Outcome State Fault Refusal :=
  match decode w v with
  | .ok i => exec i s
  | .error .illegalCommand => execIllegalCommand s
  | .error .noFormat => .next s

/-- One event of the total order (R66), from the state the event before it left. -/
def runEvent (e : Event) (s : State) : Host.Outcome State Fault Refusal :=
  match e with
  | .hostWrite w v => memWrite w v (s.record (.hostWrite w v))
  | .hostRead w => .next (s.record (.hostRead w (memRead w s)))
  | .aesAccept => .next (engineReady s)
  | .aesAnswer => .next (engineAnswers s)
  | .aesResp r => .next (answerArrives r s)
  | .take => .next (consumerReady s)
  | .reset => .next (s.applyReset.record .reset)

/-- Nothing is scheduled: no agent steps, so nothing changes, except that a machine left in phase FAULT
is a fault, never a final state (R199, R229; assumption log 2). -/
def runNothing (s : State) : Host.Outcome State Fault Refusal :=
  if s.ph = .fault then .fault (.faultPhase s.fcause) else .next s

/-- The host write of a table word of `nbits` bits, to the slot its row names (assumption log 9). -/
def tableEvent (nbits w : Nat) : Event :=
  .hostWrite (tableSlot (BitVec.ofNat 32 (w % 2 ^ nbits))) (BitVec.ofNat 32 (w % 2 ^ nbits))

end Sys2Proof.Machine
end

