-- ==== Sys2Proof/Machine/Step.lean ====
section
/-! DEFINITION. One step of the machine: the next event of the agenda happens. -/

namespace Sys2Proof.Machine

/-- One step (R66): the event at the head of the agenda is taken from it and happens. -/
def step (s : State) : Host.Outcome State Fault Refusal :=
  match s.agenda with
  | [] => runNothing s
  | e :: rest => runEvent e { s with agenda := rest }

/-- The very next event is the host write of this table word (assumption logs 1 and 9). -/
def State.withFetchWord (s : State) (nbits w : Nat) : State :=
  { s with agenda := tableEvent nbits w :: s.agenda }

end Sys2Proof.Machine
end

