-- ==== Sys2Proof/Machine/Program.lean ====
section
/-! DEFINITION. Host program notation (30_encoding.md R87 to R89): the events each line stands for. -/

namespace Sys2Proof.Machine

/-- `WR CMD, <mnemonic>` and `WR DIN, #<hex byte>`: the write of an instruction's word (R84, R87). -/
def writeOp (i : Instr) : Event := .hostWrite (encode i).1 (encode i).2

/-- `ENGINE`: every acceptance and answer that is enabled, until none is (R88). A command causes at most
two requests (R161) and a stimulus that meets no enabled step does nothing, so two of each suffice. -/
def engineEvents : List Event := [.aesAccept, .aesAnswer, .aesAccept, .aesAnswer]

/-- The events of one line (R87, R88). `WAIT` implies ENGINE, after which the first poll of STATUS already
reads BUSY = 0 (DESIGN CHOICE of a schedule: assumption log 11). -/
def lineEvents : HostLine → List Event
  | .wrOp i => [writeOp i]
  | .wrCmdWord v => [.hostWrite Config.slotCmd v]
  | .memWrite addr _ v => [.hostWrite (BitVec.ofNat 3 (addr / 4)) v]
  | .memRead addr _ => [.hostRead (BitVec.ofNat 3 (addr / 4))]
  | .pushs bytes => bytes.map fun b => writeOp (.push b)
  | .wait => engineEvents ++ [.hostRead Config.slotStatus]
  | .take => [.take]
  | .reset => [.reset]
  | .engine => engineEvents

/-- The events of a program, if every line can be expressed on port H (R56). -/
def programEvents (lines : List HostLine) : Option (List Event) :=
  if lines.all HostLine.wellFormed then some (lines.flatMap lineEvents) else none

/-- `Construct(key)` (R89). -/
def constructLines (key : List Byte) : List HostLine :=
  [.pushs key, .wrOp .loadkey, .wait, .memRead 4 4]

/-- The derivation inside `SealManual(nonce, ...)` (R89). -/
def sealLines (nonce : List Byte) : List HostLine :=
  [.pushs nonce, .wrOp .deriveSeal, .wait, .take]

/-- The derivation inside `OpenManual(nonce, ...)` (R89). -/
def openLines (nonce : List Byte) : List HostLine :=
  [.pushs nonce, .wrOp .deriveOpen, .memRead 4 4, .wait, .take]

/-- A machine with these events scheduled (assumption log 1). -/
def State.withAgenda (es : List Event) (s : State) : State := { s with agenda := es }

end Sys2Proof.Machine
end

