-- ==== Sys2Proof/Safety.lean ====
section
/-! DEFINITION. The notions claims about the machine are stated in: the invariants of 10_state.md R41 with
what makes them inductive, the engine contract (20_memory.md R63), reachable states, quiescence
(70_reset_and_hazards.md R229), the fused AES call and the phase transition table
(42_sequencer_steps.md R159, R160), and what an observer who sees no secret bytes can see (R40, R231). -/

namespace Sys2Proof.Machine

/-- The block's own twelve pieces of state agree (R20); the engine's request and the model's lists may differ. -/
structure SameBlock (s t : State) : Prop where
  ibuf : s.ibuf = t.ibuf
  ilen : s.ilen = t.ilen
  masterKey : s.masterKey = t.masterKey
  k1 : s.k1 = t.k1
  nonce : s.nonce = t.nonce
  dk : s.dk = t.dk
  kv : s.kv = t.kv
  dkv : s.dkv = t.dkv
  ovr : s.ovr = t.ovr
  err : s.err = t.err
  fcause : s.fcause = t.fcause
  ph : s.ph = t.ph

/-- The one request the engine holds in each waiting phase (R35). -/
def awaitedRequest (s : State) : Option AesRequest :=
  match s.ph with
  | .initWait => some ⟨s.masterKey, zeroBlock⟩
  | .drv1Wait => some ⟨s.masterKey, requestX .first s⟩
  | .drv2Wait => some ⟨s.masterKey, requestX .second s⟩
  | .idle | .initReq | .drv1Req | .drv2Req | .fault => none

/-- PH is 1 or 2: LOADKEY is running. -/
abbrev LoadingKey (s : State) : Prop := s.ph = .initReq ∨ s.ph = .initWait

/-- PH is 3 to 6: a derivation is running. -/
abbrev Deriving (s : State) : Prop :=
  s.ph = .drv1Req ∨ s.ph = .drv1Wait ∨ s.ph = .drv2Req ∨ s.ph = .drv2Wait

/-- The invariants V1 to V4 and V7 to V10 of R41 (V5 is `KeyMatches`, V6 a property of steps), and the
facts that make them inductive: the codes of R31 and R32, the request of R35, and what DK and NONCE hold
while an operation runs (R25, R26, R154). -/
structure Inv (s : State) : Prop where
  v1 : s.dkv = true → s.ph = .idle ∧ s.kv = true
  v2 : Deriving s → s.kv = true ∧ s.dkv = false
  v3 : LoadingKey s → s.kv = false ∧ s.dkv = false ∧ s.k1 = zeros 16
  v4 : s.ph = .fault → s.ibuf = zeros 32 ∧ s.masterKey = zeros 32 ∧ s.k1 = zeros 16 ∧ s.nonce = zeros 24 ∧
    s.dk = zeros 32 ∧ s.ilen = 0 ∧ s.kv = false ∧ s.dkv = false ∧ s.ovr = false ∧ s.err = 0 ∧ s.fcause ≠ 0
  v7 : ∀ (i : Nat) (h : i < 32), min s.ilen.toNat 32 ≤ i → s.ibuf[i] = 0
  v8 : s.dkv = false → s.ph = .idle → s.dk = zeros 32 ∧ s.nonce = zeros 24
  v9 : s.kv = false → ¬LoadingKey s → s.masterKey = zeros 32 ∧ s.k1 = zeros 16
  v10 : s.fcause ≠ 0 ↔ s.ph = .fault
  errCode : s.err.toNat ≤ 5
  causeCode : s.fcause.toNat ≤ 1
  held : s.engine = awaitedRequest s
  loadingOutput : LoadingKey s → s.dk = zeros 32 ∧ s.nonce = zeros 24
  firstOutput : s.ph = .drv1Req ∨ s.ph = .drv1Wait → s.dk = zeros 32
  secondOutput : s.ph = .drv2Req ∨ s.ph = .drv2Wait → slice s.dk 16 16 = zeros 16

/-- V5 of R41, and what KV = 1 means (R28): K1 is the subkey of MK. -/
def KeyMatches (s : State) : Prop := s.kv = true → s.k1 = subkey s.masterKey

/-- The engine contract (R63) for the next step: an answer that arrives is the answer to the request the
engine holds. `aesAnswer` keeps it by definition; only a raw `aesResp` could break it (E1, E2). -/
def KeepsContract (s : State) : Prop :=
  ∀ r rest, s.agenda = .aesResp r :: rest →
    ∃ q, s.engine = some q ∧ r = Config.AESENC q.key q.block

/-- Reachable from reset under some schedule, every step starting in a state that meets `allowed`. -/
inductive ReachableBy (allowed : State → Prop) : State → Prop where
  | start (es : List Event) : ReachableBy allowed (State.reset.withAgenda es)
  | step {s t : State} (reached : ReachableBy allowed s) (ok : allowed s)
      (moves : Sys2Proof.Machine.step s = .next t) : ReachableBy allowed t

/-- Reachable after reset under any sequence of steps (R41). -/
abbrev Reachable : State → Prop := ReachableBy fun _ => True

/-- Reachable by steps in which the engine keeps its contract (R63). -/
abbrev ContractReachable : State → Prop := ReachableBy KeepsContract

/-- No agent but the host and the reset source has an enabled step (R229). -/
abbrev Quiescent (s : State) : Prop := (s.ph = .idle ∧ s.dkv = false) ∨ s.ph = .fault

/-- The request step and the answer step of an AES call fused into one (R159): PH goes 1 to 0, 3 to 5,
5 to 0, and the value is `AESENC(MK, block)`. -/
def aesCall (s : State) : State :=
  let call (block : Bytes 16) (fold : Bytes 16 → State → State) : State :=
    fold (Config.AESENC s.masterKey block)
      { s with engine := none, trace := .aesResp (Config.AESENC s.masterKey block) :: .aesReq s.masterKey block :: s.trace }
  match s.ph with
  | .initReq => call zeroBlock seqInitResp
  | .drv1Req => call (requestX .first s) seqDrv1Resp
  | .drv2Req => call (requestX .second s) seqDrv2Resp
  | .idle | .initWait | .drv1Wait | .drv2Wait | .fault => s

/-- The phase transition table (R160) as a function of the state and the event: the first column and the
event column select the row, and every pair that is not listed leaves PH as it is. -/
def nextPhase (e : Event) (s : State) : Phase :=
  match e, s.ph with
  | .reset, _ => .idle
  | .hostWrite w v, .idle =>
    if w = 2 ∧ v = 1 ∧ s.dkv = false ∧ s.ilen = 32 then .initReq
    else if w = 2 ∧ (v = 2 ∨ v = 3) ∧ s.dkv = false ∧ s.kv = true ∧ s.ilen = 24 then .drv1Req
    else if w = 2 ∧ v = 2 ∧ s.dkv = false ∧ s.kv = true ∧ s.ilen ≠ 24 then .fault
    else .idle
  | .aesAccept, .initReq => .initWait
  | .aesAccept, .drv1Req => .drv1Wait
  | .aesAccept, .drv2Req => .drv2Wait
  | .aesResp _, .initWait => .idle
  | .aesResp _, .drv1Wait => .drv2Req
  | .aesResp _, .drv2Wait => .idle
  | .aesAnswer, .initWait => if s.engine.isSome then .idle else .initWait
  | .aesAnswer, .drv1Wait => if s.engine.isSome then .drv2Req else .drv1Wait
  | .aesAnswer, .drv2Wait => if s.engine.isSome then .idle else .drv2Wait
  | _, p => p

/-- The event is a host write of CMD or DIN. -/
def Event.isPushOrCommand : Event → Bool
  | .hostWrite w _ => w = Config.slotCmd || w = Config.slotDin
  | .hostRead _ | .aesAccept | .aesAnswer | .aesResp _ | .take | .reset => false

/-- The port event hands something out of the block on port A or port G. -/
def PortEvent.isOutput : PortEvent → Bool
  | .aesReq _ _ | .deliver _ _ => true
  | .hostWrite _ _ | .hostRead _ _ | .aesResp _ | .reset => false

/-- Two scheduled events differ at most in secret bytes: a pushed byte, an answer of the engine. -/
def Event.PublicEq : Event → Event → Prop
  | .hostWrite w v, .hostWrite w' v' => w = w' ∧ (w = Config.slotDin ∨ v = v')
  | .hostRead w, .hostRead w' => w = w'
  | .aesAccept, .aesAccept => True
  | .aesAnswer, .aesAnswer => True
  | .aesResp _, .aesResp _ => True
  | .take, .take => True
  | .reset, .reset => True
  | _, _ => False

/-- Two port events differ at most in secret bytes: what the host reads is the same. -/
def PortEvent.PublicEq : PortEvent → PortEvent → Prop
  | .hostWrite w v, .hostWrite w' v' => w = w' ∧ (w = Config.slotDin ∨ v = v')
  | .hostRead w d, .hostRead w' d' => w = w' ∧ d = d'
  | .aesReq _ _, .aesReq _ _ => True
  | .aesResp _, .aesResp _ => True
  | .deliver _ _, .deliver _ _ => True
  | .reset, .reset => True
  | _, _ => False

/-- Two states differ at most in secret bytes (R40, R231): IBUF, MK, K1, NONCE and DK, the bytes of the
engine's request, and the secret bytes of scheduled and past events are free; all else agrees. -/
structure PublicEq (s t : State) : Prop where
  ilen : s.ilen = t.ilen
  kv : s.kv = t.kv
  dkv : s.dkv = t.dkv
  ovr : s.ovr = t.ovr
  err : s.err = t.err
  fcause : s.fcause = t.fcause
  ph : s.ph = t.ph
  engine : s.engine.isSome = t.engine.isSome
  agenda : List.Forall₂ Event.PublicEq s.agenda t.agenda
  trace : List.Forall₂ PortEvent.PublicEq s.trace t.trace

end Sys2Proof.Machine
end

