-- ==== Sys2Proof/Certificates/Slice0/Obligations.lean ====
section
/-! DEFINITION. The statements for the provers. OBLIGATIONS.json gives each its rule and its quote. The
agenda and the trace of a state are the model's own lists, not the block's (assumption logs 1 and 4): a
statement names the next event by the head of the agenda, and says what crossed a port by what a step puts
at the head of the trace. -/

open Sys2Proof Sys2Proof.Machine

/-! ## Encoding -/

/-- R86: the decoder of CMD words is the one the rule writes out; the table's rows have the mask and match
the rule gives them; a word decodes to an instruction exactly when it matches that instruction's row in
that row's slot; a CMD word that matches no row is illegal. -/
def Obligations.DecoderReadsExactlyTheTable : Prop :=
  (∀ v : Word, decode 2 v =
    if v.extractLsb' 8 24 ≠ 0 then .error .illegalCommand
    else if v.extractLsb' 0 8 = 1 then .ok .loadkey
    else if v.extractLsb' 0 8 = 2 then .ok .deriveSeal
    else if v.extractLsb' 0 8 = 3 then .ok .deriveOpen
    else if v.extractLsb' 0 8 = 4 then .ok .flush
    else if v.extractLsb' 0 8 = 5 then .ok .zeroize
    else .error .illegalCommand) ∧
  (∀ i : Instr, i.row =
    match i with
    | .push _ => ⟨3, 0x00000000, 0x00000000⟩
    | j => ⟨2, 0xFFFFFFFF, (encode j).2⟩) ∧
  (∀ (w : Slot) (v : Word) (i : Instr), decode w v = .ok i ↔
    i.row.accepts w v = true ∧ ∀ b, i = .push b → b = v.extractLsb' 0 8) ∧
  (∀ v : Word, decode 2 v = .error .illegalCommand ↔ ∀ i : Instr, i.row.accepts 2 v = false)

/-- R81, R82: a CMD word is legal if and only if RSV = 0 and OPC is one of 0x01 to 0x05; every DIN word is
legal and is the push of its low byte, so two DIN words that differ only in bits 31:8 have the same effect
in every state. -/
def Obligations.LegalWordsOfBothFormats : Prop :=
  (∀ v : Word, (∃ i, decode 2 v = .ok i) ↔
    v.extractLsb' 8 24 = 0 ∧ 1 ≤ (v.extractLsb' 0 8).toNat ∧ (v.extractLsb' 0 8).toNat ≤ 5) ∧
  (∀ v : Word, decode 3 v = .ok (.push (v.extractLsb' 0 8))) ∧
  (∀ (v v' : Word) (s : State), v.extractLsb' 0 8 = v'.extractLsb' 0 8 → memWrite 3 v s = memWrite 3 v' s)

/-- Decoding the encoding of any instruction gives it back, at every value of the pushed byte (R84, R87). -/
def Obligations.DecodeInvertsEncode : Prop :=
  ∀ i : Instr, decode (encode i).1 (encode i).2 = .ok i

/-- A few words of the encoding table (R84, R82), as written there. -/
def Obligations.WordsOfTheEncodingTable : Prop :=
  decode 2 0x00000001 = .ok .loadkey ∧ decode 2 0x00000002 = .ok .deriveSeal ∧
  decode 2 0x00000003 = .ok .deriveOpen ∧ decode 2 0x00000004 = .ok .flush ∧
  decode 2 0x00000005 = .ok .zeroize ∧ decode 3 0xFFFFFF41 = .ok (.push 0x41) ∧
  decode 3 0x000001AB = .ok (.push 0xAB) ∧ decode 2 0x00000000 = .error .illegalCommand ∧
  decode 2 0x00000102 = .error .illegalCommand ∧ decode 2 0x00000006 = .error .illegalCommand

/-- R85, R128: every CMD word but the five legal ones behaves the same: examined in IDLE it raises
ILLEGAL_COMMAND and changes nothing else, while busy it is dropped, in FAULT it is ignored. -/
def Obligations.IllegalWordsAllBehaveTheSame : Prop :=
  ∀ (v : Word) (s : State), v ≠ 1 → v ≠ 2 → v ≠ 3 → v ≠ 4 → v ≠ 5 →
    (s.ph = .idle → memWrite 2 v s = .next { s with err := 3 }) ∧
    (s.ph.busy = true → memWrite 2 v s = .next { s with ovr := true }) ∧
    (s.ph = .fault → memWrite 2 v s = .next s)

/-- Whole memory lines are exactly those port H can carry (R51, R55, R56). -/
def Obligations.AccessesPortHCannotCarryAreRefused : Prop :=
  ∀ (addr size : Nat) (v : Word),
    (size = 4 ∧ addr % 4 = 0 ∧ addr < 32 →
      programEvents [.memWrite addr size v] = some [.hostWrite (BitVec.ofNat 3 (addr / 4)) v] ∧
      programEvents [.memRead addr size] = some [.hostRead (BitVec.ofNat 3 (addr / 4))]) ∧
    (¬(size = 4 ∧ addr % 4 = 0 ∧ addr < 32) →
      programEvents [.memWrite addr size v] = none ∧ programEvents [.memRead addr size] = none)

/-! ## The step -/

/-- When the next event is a host write whose slot and word decode to `i`, the step is `exec i` at that
state, with the event taken from the agenda and recorded. -/
def Obligations.StepRunsTheDecodedInstruction : Prop :=
  ∀ (s : State) (w : Slot) (v : Word) (rest : List Event) (i : Instr),
    s.agenda = .hostWrite w v :: rest → decode w v = .ok i →
    step s = exec i { s with agenda := rest, trace := .hostWrite w v :: s.trace }

/-- A step runs the word a table row gives, on the slot the model takes it for (the slot is the model's
choice, assumption log 9). -/
def Obligations.FetchWordRunsTheTableInstruction : Prop :=
  ∀ (s : State) (nbits w : Nat) (i : Instr), decodeTableWord nbits w = some i →
    ∃ slot, decode slot (BitVec.ofNat 32 w) = .ok i ∧
      step (s.withFetchWord nbits w) =
        exec i { s with trace := .hostWrite slot (BitVec.ofNat 32 w) :: s.trace }

/-- What each other event is (R60, R62, R63, R65, R215), and what a step does when nothing is scheduled
(the model's choice, assumption log 2). -/
def Obligations.StepRunsEveryOtherEvent : Prop :=
  ∀ s : State,
    (s.agenda = [] → s.ph ≠ .fault → step s = .next s) ∧
    (s.agenda = [] → s.ph = .fault → step s = .fault (.faultPhase s.fcause)) ∧
    ∀ rest : List Event,
      (s.agenda = .aesAccept :: rest → step s = .next (engineReady { s with agenda := rest })) ∧
      (s.agenda = .aesAnswer :: rest → step s =
        .next (match s.engine with
          | none => { s with agenda := rest }
          | some q => answerArrives (Config.AESENC q.key q.block) { s with agenda := rest })) ∧
      (∀ r, s.agenda = .aesResp r :: rest → step s = .next (answerArrives r { s with agenda := rest })) ∧
      (s.agenda = .take :: rest → step s = .next (consumerReady { s with agenda := rest })) ∧
      (s.agenda = .reset :: rest →
        step s = .next { State.reset with agenda := rest, trace := .reset :: s.trace })

/-- Every instruction completes in every state, and so does every write of every slot: no host operation
faults or is refused (R51: a transaction always completes, R11: every rule is total over the state). -/
def Obligations.EveryHostOperationCompletes : Prop :=
  (∀ (i : Instr) (s : State), ∃ t, exec i s = .next t) ∧
  (∀ (w : Slot) (v : Word) (s : State), ∃ t, memWrite w v s = .next t)

/-! ## Host reads and writes -/

/-- R52: what a read of each slot returns; a read changes no state of the block. -/
def Obligations.HostReadsReturnTheRegisterMap : Prop :=
  ∀ (s : State) (w : Slot) (rest : List Event), s.agenda = .hostRead w :: rest →
    ∃ d : Word,
      step s = .next { s with agenda := rest, trace := .hostRead w d :: s.trace } ∧
      (w = 0 → d = 0x584B4401) ∧ (w = 1 → d = statusWord s) ∧ (w = 4 → d = s.ilen.setWidth 32) ∧
      (w ≠ 0 → w ≠ 1 → w ≠ 4 → d = 0)

/-- R53: a write of slot 2 is the command its word encodes or the illegal command, a write of slot 3 is a
push, and a write of any other slot changes nothing in any phase. -/
def Obligations.HostWritesBySlot : Prop :=
  ∀ (s : State) (v : Word),
    (∀ i, decode 2 v = .ok i → memWrite 2 v s = exec i s) ∧
    ((∀ i, decode 2 v ≠ .ok i) → memWrite 2 v s = execIllegalCommand s) ∧
    memWrite 3 v s = exec (.push (v.extractLsb' 0 8)) s ∧
    (∀ w : Slot, w ≠ 2 → w ≠ 3 → memWrite w v s = .next s)

/-- R39: the STATUS word is the sum the rule gives, so its reserved bits read 0; a read of it
changes nothing but the record of port events, and a write of it is ignored. -/
def Obligations.StatusWordIsTheSumOfItsFields : Prop :=
  ∀ (s : State) (v : Word),
    memRead 1 s = statusWord s ∧
    (statusWord s).toNat = s.ph.busy.toNat + 2 * s.kv.toNat + 4 * s.dkv.toNat +
      8 * (decide (s.ph = .fault)).toNat + 16 * s.ovr.toNat + 256 * s.err.toNat +
      4096 * s.fcause.toNat + 65536 * s.ph.code.toNat ∧
    runEvent (.hostRead 1) s = .next { s with trace := .hostRead 1 (statusWord s) :: s.trace } ∧
    memWrite 1 v s = .next s

/-! ## PUSH and the commands: results and frames -/

/-- R120: PUSH by phase. Examined in IDLE it stores its byte at `IBUF[ILEN]` while there is room, counts up
to 63, and changes nothing else; every other byte of IBUF is kept. -/
def Obligations.PushStoresAndCounts : Prop :=
  ∀ (s : State) (v : Word) (b : Byte), b = v.extractLsb' 0 8 →
    memWrite 3 v s = exec (.push b) s ∧
    (s.ph = .fault → exec (.push b) s = .next s) ∧
    (s.ph.busy = true → exec (.push b) s = .next { s with ovr := true }) ∧
    (s.ph = .idle → ∃ t, exec (.push b) s = .next t ∧
      t = { s with ibuf := t.ibuf, ilen := t.ilen } ∧
      t.ilen.toNat = min (s.ilen.toNat + 1) 63 ∧
      ∀ (j : Nat) (h : j < 32), t.ibuf[j] = if j = s.ilen.toNat then b else s.ibuf[j])

/-- R123: LOADKEY examined in IDLE, its two errors and its acceptance. -/
def Obligations.LoadkeyByCases : Prop :=
  ∀ s : State, s.ph = .idle →
    (s.dkv = true →
      exec .loadkey s = .next { s with ibuf := zeros 32, ilen := 0, err := 5 }) ∧
    (s.dkv = false → s.ilen ≠ 32 →
      exec .loadkey s = .next { s with ibuf := zeros 32, ilen := 0, err := 1 }) ∧
    (s.dkv = false → s.ilen = 32 →
      exec .loadkey s = .next
        { s with
          masterKey := s.ibuf, k1 := zeros 16, kv := false, ibuf := zeros 32, ilen := 0, err := 0
          ph := .initReq })

/-- R124: DERIVE_SEAL examined in IDLE, its two errors, its trap and its acceptance. -/
def Obligations.DeriveSealByCases : Prop :=
  ∀ s : State, s.ph = .idle →
    (s.dkv = true →
      exec .deriveSeal s = .next { s with ibuf := zeros 32, ilen := 0, err := 5 }) ∧
    (s.dkv = false → s.kv = false →
      exec .deriveSeal s = .next { s with ibuf := zeros 32, ilen := 0, err := 4 }) ∧
    (s.dkv = false → s.kv = true → s.ilen ≠ 24 →
      exec .deriveSeal s = .next (s.raiseTrap 1)) ∧
    (s.dkv = false → s.kv = true → s.ilen = 24 → ∃ t, exec .deriveSeal s = .next t ∧
      t = { s with nonce := t.nonce, ibuf := zeros 32, ilen := 0, err := 0, ph := .drv1Req } ∧
      ∀ (j : Nat) (h : j < 24), t.nonce[j] = s.ibuf[j])

/-- R125: DERIVE_OPEN examined in IDLE, its three errors and its acceptance; never a trap; and wherever the
length is not what fails, it does exactly what DERIVE_SEAL does. -/
def Obligations.DeriveOpenByCases : Prop :=
  ∀ s : State, s.ph = .idle →
    (s.dkv = true →
      exec .deriveOpen s = .next { s with ibuf := zeros 32, ilen := 0, err := 5 }) ∧
    (s.dkv = false → s.kv = false →
      exec .deriveOpen s = .next { s with ibuf := zeros 32, ilen := 0, err := 4 }) ∧
    (s.dkv = false → s.kv = true → s.ilen ≠ 24 →
      exec .deriveOpen s = .next { s with ibuf := zeros 32, ilen := 0, err := 2 }) ∧
    (s.dkv = false → s.kv = true → s.ilen = 24 → ∃ t, exec .deriveOpen s = .next t ∧
      t = { s with nonce := t.nonce, ibuf := zeros 32, ilen := 0, err := 0, ph := .drv1Req } ∧
      ∀ (j : Nat) (h : j < 24), t.nonce[j] = s.ibuf[j]) ∧
    (s.dkv = true ∨ s.kv = false ∨ s.ilen = 24 → exec .deriveOpen s = exec .deriveSeal s)

/-- R124, R125, R182: the two derive commands agree in every state except where DERIVE_SEAL traps. -/
def Obligations.SealAndOpenDifferOnlyInTheTrap : Prop :=
  ∀ s : State,
    exec .deriveSeal s = exec .deriveOpen s ∨
    (s.ph = .idle ∧ s.dkv = false ∧ s.kv = true ∧ s.ilen ≠ 24 ∧
      ∃ t u, exec .deriveSeal s = .next t ∧ exec .deriveOpen s = .next u ∧
        t.ph = .fault ∧ u.ph = .idle ∧ u.kv = true ∧ u.masterKey = s.masterKey ∧ u.k1 = s.k1)

/-- R197: taking the trap clears everything, saves nothing, sets FCAUSE and PH; the state is the reset state
except for FCAUSE and PH, and STATUS reads as the rule says. -/
def Obligations.TrapEntryDestroysEverything : Prop :=
  ∀ (s : State) (cause : BitVec 4),
    SameBlock (s.raiseTrap cause) { State.reset with fcause := cause, ph := .fault } ∧
    (statusWord (s.raiseTrap cause)).toNat = 8 + 4096 * cause.toNat + 65536 * 7 ∧
    statusWord (s.raiseTrap 1) = 0x00071008 ∧
    (s.raiseTrap cause).engine = s.engine ∧ (s.raiseTrap cause).agenda = s.agenda ∧
    (s.raiseTrap cause).trace = s.trace

/-- R196: DERIVE_SEAL with a key, no pending output and a length other than 24 traps, at that write, with
nothing sent on port A or port G; and no other step enters FAULT. -/
def Obligations.WrongSealLengthIsTheOnlyTrap : Prop :=
  ∀ (s t : State) (e : Event) (rest : List Event), s.agenda = e :: rest → step s = .next t →
    (s.ph = .idle → s.dkv = false → s.kv = true → s.ilen ≠ 24 → e = .hostWrite 2 2 →
      SameBlock t { State.reset with fcause := 1, ph := .fault } ∧
      statusWord t = 0x00071008 ∧ t.trace = .hostWrite 2 2 :: s.trace) ∧
    (t.ph = .fault → s.ph ≠ .fault →
      e = .hostWrite 2 2 ∧ s.ph = .idle ∧ s.dkv = false ∧ s.kv = true ∧ s.ilen ≠ 24)

/-- R126, R127: FLUSH and ZEROIZE examined in IDLE; in a state that meets the invariants ZEROIZE leaves the
block as after reset (the premise gives FCAUSE = 0, which ZEROIZE does not touch). -/
def Obligations.FlushAndZeroizeClear : Prop :=
  ∀ s : State, s.ph = .idle →
    exec .flush s = .next
      { s with
        ibuf := zeros 32, ilen := 0, nonce := zeros 24, dk := zeros 32, dkv := false, err := 0
        ovr := false } ∧
    exec .zeroize s = .next
      { s with
        ibuf := zeros 32, ilen := 0, nonce := zeros 24, dk := zeros 32, dkv := false, err := 0
        ovr := false, masterKey := zeros 32, k1 := zeros 16, kv := false } ∧
    (Inv s → ∃ t, exec .zeroize s = .next t ∧ SameBlock t State.reset)

/-- R129: a write of DIN or CMD while busy only sets OVR, whatever its word, and the steps of the operation
in progress come out as if it had not happened; in FAULT the write has no effect at all. -/
def Obligations.WritesWhileBusyAreDropped : Prop :=
  ∀ (s : State) (w : Slot) (v : Word), w = 2 ∨ w = 3 →
    (s.ph.busy = true → memWrite w v s = .next { s with ovr := true }) ∧
    (s.ph = .fault → memWrite w v s = .next s) ∧
    engineReady { s with ovr := true } = { engineReady s with ovr := true } ∧
    engineAnswers { s with ovr := true } = { engineAnswers s with ovr := true } ∧
    ∀ r, answerArrives r { s with ovr := true } = { answerArrives r s with ovr := true }

/-- R201: one CMD write raises at most one exception, and of the conditions that hold the one tested first
wins, in the order of the rule. -/
def Obligations.ExceptionPriority : Prop :=
  ∀ (s : State) (v : Word), ∃ t, memWrite 2 v s = .next t ∧
    (t.err =
      if s.ph = .fault then s.err
      else if s.ph ≠ .idle then s.err
      else if v.toNat = 0 ∨ 5 < v.toNat then 3
      else if v = 4 ∨ v = 5 then 0
      else if s.dkv = true then 5
      else if v ≠ 1 ∧ s.kv = false then 4
      else if v = 1 then (if s.ilen = 32 then 0 else 1)
      else if s.ilen = 24 then 0
      else if v = 2 then 0
      else 2) ∧
    (t.ovr = true ↔ (s.ph.busy = true ∨ (s.ovr = true ∧
      ¬(s.ph = .idle ∧ (v = 4 ∨ v = 5 ∨ (v = 2 ∧ s.dkv = false ∧ s.kv = true ∧ s.ilen ≠ 24)))))) ∧
    (t.ph = .fault ↔ s.ph = .fault ∨
      (s.ph = .idle ∧ v = 2 ∧ s.dkv = false ∧ s.kv = true ∧ s.ilen ≠ 24))

/-- The frame of every host operation (R27 and the rules it names): what each one leaves unchanged whatever
it meets, with the byte of IBUF a push stores to computed as its meaning computes it. -/
def Obligations.HostOperationFrames : Prop :=
  ∀ (i : Instr) (s t : State), exec i s = .next t →
    t.engine = s.engine ∧ t.agenda = s.agenda ∧ t.trace = s.trace ∧
    (∀ b, i = .push b →
      t.masterKey = s.masterKey ∧ t.k1 = s.k1 ∧ t.nonce = s.nonce ∧ t.dk = s.dk ∧ t.kv = s.kv ∧
      t.dkv = s.dkv ∧ t.err = s.err ∧ t.fcause = s.fcause ∧ t.ph = s.ph ∧
      (s.ph = .idle → t.ovr = s.ovr) ∧ (s.ph ≠ .idle → t.ibuf = s.ibuf ∧ t.ilen = s.ilen) ∧
      ∀ (j : Nat) (h : j < 32), j ≠ s.ilen.toNat → t.ibuf[j] = s.ibuf[j]) ∧
    (i = .loadkey →
      t.nonce = s.nonce ∧ t.dk = s.dk ∧ t.dkv = s.dkv ∧ t.fcause = s.fcause ∧
      (s.ph = .idle → t.ovr = s.ovr) ∧
      (t.ph = s.ph → t.masterKey = s.masterKey ∧ t.k1 = s.k1 ∧ t.kv = s.kv)) ∧
    (i = .deriveOpen ∨ (i = .deriveSeal ∧ (t.ph = .fault → s.ph = .fault)) →
      t.masterKey = s.masterKey ∧ t.k1 = s.k1 ∧ t.dk = s.dk ∧ t.kv = s.kv ∧ t.dkv = s.dkv ∧
      t.fcause = s.fcause ∧ (s.ph = .idle → t.ovr = s.ovr) ∧ (t.ph = s.ph → t.nonce = s.nonce)) ∧
    (i = .flush →
      t.masterKey = s.masterKey ∧ t.k1 = s.k1 ∧ t.kv = s.kv ∧ t.fcause = s.fcause ∧ t.ph = s.ph) ∧
    (i = .zeroize → t.fcause = s.fcause ∧ t.ph = s.ph) ∧
    ((∀ b, i ≠ .push b) → s.ph ≠ .idle →
      t.ibuf = s.ibuf ∧ t.ilen = s.ilen ∧ t.masterKey = s.masterKey ∧ t.k1 = s.k1 ∧
      t.nonce = s.nonce ∧ t.dk = s.dk ∧ t.kv = s.kv ∧ t.dkv = s.dkv ∧ t.err = s.err ∧
      t.fcause = s.fcause ∧ t.ph = s.ph)

/-! ## The sequencer, the engine and the consumer -/

/-- R151, R153, R155: in phases 1, 3, 5 the engine's acceptance is the event `AesReq` with key MK and the
block of the phase; the phase moves on and nothing else of the block changes. -/
def Obligations.RequestStepsSendTheBlockOfThePhase : Prop :=
  ∀ (s : State) (rest : List Event), s.agenda = .aesAccept :: rest →
    (s.ph = .initReq → step s = .next
      { s with
        agenda := rest, trace := .aesReq s.masterKey (zeros 16) :: s.trace
        engine := some ⟨s.masterKey, zeros 16⟩, ph := .initWait }) ∧
    (s.ph = .drv1Req → step s = .next
      { s with
        agenda := rest
        trace := .aesReq s.masterKey (xor16 (joinBytes #v[0x00, 0x01, 0x58, 0x00] (slice s.nonce 0 12)) s.k1) :: s.trace
        engine := some ⟨s.masterKey, xor16 (joinBytes #v[0x00, 0x01, 0x58, 0x00] (slice s.nonce 0 12)) s.k1⟩
        ph := .drv1Wait }) ∧
    (s.ph = .drv2Req → step s = .next
      { s with
        agenda := rest
        trace := .aesReq s.masterKey (xor16 (joinBytes #v[0x00, 0x02, 0x58, 0x00] (slice s.nonce 0 12)) s.k1) :: s.trace
        engine := some ⟨s.masterKey, xor16 (joinBytes #v[0x00, 0x02, 0x58, 0x00] (slice s.nonce 0 12)) s.k1⟩
        ph := .drv2Wait }) ∧
    (s.ph ≠ .initReq → s.ph ≠ .drv1Req → s.ph ≠ .drv2Req → step s = .next { s with agenda := rest })

/-- R62, R152, R154, R156: an answer of any 16 bytes is folded into K1 or into a half of DK in phases 2, 4, 6
and is ignored in every other phase. That every answer, an ignored one and one outside the engine contract
among them, leaves the engine with no request (`t.engine = none`) is no rule's words but the model's choice,
assumption log 6. -/
def Obligations.AnswersAreFoldedByPhase : Prop :=
  ∀ (s : State) (r : Bytes 16) (rest : List Event), s.agenda = .aesResp r :: rest →
    ∃ t, step s = .next t ∧ t.agenda = rest ∧ t.trace = .aesResp r :: s.trace ∧ t.engine = none ∧
      (s.ph = .initWait → SameBlock t { s with k1 := dbl r, kv := true, ph := .idle }) ∧
      (s.ph = .drv1Wait → SameBlock t { s with dk := t.dk, ph := .drv2Req } ∧
        (∀ (j : Nat) (h : j < 16), t.dk[j] = r[j]) ∧
        ∀ (j : Nat) (h : j < 32), 16 ≤ j → t.dk[j] = s.dk[j]) ∧
      (s.ph = .drv2Wait → SameBlock t { s with dk := t.dk, dkv := true, ph := .idle } ∧
        (∀ (j : Nat) (h : j < 16), t.dk[16 + j] = r[j]) ∧
        ∀ (j : Nat) (h : j < 16), t.dk[j] = s.dk[j]) ∧
      (s.ph ≠ .initWait → s.ph ≠ .drv1Wait → s.ph ≠ .drv2Wait → SameBlock t s)

/-- R158: a consumer that is ready while DKV = 1 takes DK and the last 12 nonce bytes, and both registers are
cleared; while DKV = 0 it takes nothing. -/
def Obligations.DeliveryHandsOverAndClears : Prop :=
  ∀ (s : State) (rest : List Event), s.agenda = .take :: rest →
    (s.dkv = true → ∃ n2 : Bytes 12, (∀ (j : Nat) (h : j < 12), n2[j] = s.nonce[12 + j]) ∧
      step s = .next
        { s with
          agenda := rest, trace := .deliver s.dk n2 :: s.trace
          dk := zeros 32, nonce := zeros 24, dkv := false }) ∧
    (s.dkv = false → step s = .next { s with agenda := rest })

/-- R60, R61: what port A shows in every phase. -/
def Obligations.PortAShowsTheRequestOnly : Prop :=
  ∀ s : State,
    (aReqValid s = true ↔ s.ph.code = 1 ∨ s.ph.code = 3 ∨ s.ph.code = 5) ∧
    (aReqValid s = true → aKey s = bus s.masterKey) ∧
    (s.ph.code = 1 → aBlock s = bus zeroBlock) ∧
    (s.ph.code = 3 → aBlock s = bus (kdfInput .first s.k1 (nonceN1 s.nonce))) ∧
    (s.ph.code = 5 → aBlock s = bus (kdfInput .second s.k1 (nonceN1 s.nonce))) ∧
    (aReqValid s = false → aKey s = 0 ∧ aBlock s = 0)

/-- R64: what port G shows, byte by byte, and that it shows zeros while DKV = 0. -/
def Obligations.PortGShowsACompleteKeyOnly : Prop :=
  ∀ s : State,
    gValid s = s.dkv ∧
    (s.dkv = true →
      (∀ (i : Nat) (h : i < 32), (gKey s).extractLsb' (8 * (31 - i)) 8 = s.dk[i]) ∧
      ∀ (i : Nat) (h : i < 12), (gNonce s).extractLsb' (8 * (11 - i)) 8 = s.nonce[12 + i]) ∧
    (s.dkv = false → gKey s = 0 ∧ gNonce s = 0)

/-- R160: every step changes PH as the phase transition table says. -/
def Obligations.PhaseTransitionTable : Prop :=
  ∀ (s t : State) (e : Event) (rest : List Event), s.agenda = e :: rest → step s = .next t →
    t.ph = nextPhase e s

/-- R159: in a request phase, the acceptance and then the engine's answer are together the fused AES call. -/
def Obligations.RequestThenAnswerIsOneAesCall : Prop :=
  ∀ s : State, aReqValid s = true → engineAnswers (engineReady s) = aesCall s

/-- R150: in each phase from 1 to 6 exactly one of the engine's two steps is enabled, in phases 0 and 7
neither is, and the consumer's is enabled exactly when DKV = 1 (in states that meet the invariants); a state
is quiescent (R229) when none of the three is. -/
def Obligations.OneEnabledStepPerWorkingPhase : Prop :=
  ∀ s : State, Inv s →
    (engineReady s ≠ s ↔ s.ph = .initReq ∨ s.ph = .drv1Req ∨ s.ph = .drv2Req) ∧
    (engineAnswers s ≠ s ↔ s.ph = .initWait ∨ s.ph = .drv1Wait ∨ s.ph = .drv2Wait) ∧
    (consumerReady s ≠ s ↔ s.dkv = true) ∧
    (s.ph.busy = true → consumerReady s = s) ∧
    (Quiescent s ↔ engineReady s = s ∧ engineAnswers s = s ∧ consumerReady s = s)

/-- R67: a FLUSH and the last answer of LOADKEY come out differently in the two orders: before the answer it
is dropped with OVR, after it it is examined. -/
def Obligations.OrderOfWriteAndAnswerMatters : Prop :=
  ∀ (s : State) (L : Bytes 16) (rest : List Event), s.ph = .initWait →
    (∃ t, Host.Core.run Sys2Proof.core 2 (s.withAgenda (.hostWrite 2 4 :: .aesResp L :: rest)) = .next t ∧
      t.ovr = true ∧ t.err = s.err ∧ t.k1 = dbl L ∧ t.kv = true ∧ t.ph = .idle) ∧
    (∃ t, Host.Core.run Sys2Proof.core 2 (s.withAgenda (.aesResp L :: .hostWrite 2 4 :: rest)) = .next t ∧
      t.ovr = false ∧ t.err = 0 ∧ t.k1 = dbl L ∧ t.kv = true ∧ t.ph = .idle)

/-! ## The pure functions -/

/-- R9: the bus packing, byte 0 in the most significant bits, and the integer of a byte string. -/
def Obligations.BusPacksByteZeroFirst : Prop :=
  ∀ (n : Nat) (B : Bytes n),
    (∀ (i : Nat) (h : i < n), (bus B).extractLsb' (8 * (n - 1 - i)) 8 = B[i]) ∧
    (bus B).toNat = byteInt B ∧
    byteInt B = ∑ i : Fin n, (B[i.val]).toNat * 256 ^ (n - 1 - i.val) ∧
    ofBus (bus B) = B ∧
    ∀ x : BitVec (8 * n), bus (ofBus x) = x

/-- R101: the doubler on integers. -/
def Obligations.DoublerOnIntegers : Prop :=
  ∀ L : Bytes 16,
    byteInt (dbl L) = ((2 * byteInt L) % 2 ^ 128) ^^^ (if (byteInt L).testBit 127 then 0x87 else 0)

/-- R102: the doubler on bytes; both forms give the same result for every L. -/
def Obligations.DoublerOnBytes : Prop :=
  ∀ L : Bytes 16,
    (∀ (i : Nat) (h : i < 15), (dbl L)[i] = (L[i] <<< 1) ||| (L[i + 1] >>> 7)) ∧
    (dbl L)[15] = (L[15] <<< 1) ^^^ (if L[0] >>> 7 = 1 then 0x87 else 0x00) ∧
    dblBytes L = dbl L

/-- R103 (a) to (d): zero, the last byte's parity in both branches, linearity over XOR. -/
def Obligations.DoublerLaws : Prop :=
  dbl (zeros 16) = zeros 16 ∧
  (∀ L : Bytes 16, (dbl L)[15].getLsbD 0 = L[0].getLsbD 7) ∧
  (∀ L : Bytes 16, L[0].getLsbD 7 = false → byteInt (dbl L) = 2 * byteInt L) ∧
  ∀ A B : Bytes 16, dbl (xor16 A B) = xor16 (dbl A) (dbl B)

/-- R103 (e): the doubler is a bijection and its inverse is the one the rule gives. -/
def Obligations.DoublerIsABijection : Prop :=
  ∀ L : Bytes 16, dblInverse (dbl L) = L ∧ dbl (dblInverse L) = L

/-- R103 (f): read as polynomials over GF(2), the double of L is `x * L mod (x^128 + x^7 + x^2 + x + 1)`. -/
def Obligations.DoublerIsMultiplicationByX : Prop :=
  ∀ L : Bytes 16,
    (∑ k ∈ Finset.range 128,
      if (bus (dbl L)).getLsbD k then (Polynomial.X ^ k : Polynomial (ZMod 2)) else 0) =
    (Polynomial.X * ∑ k ∈ Finset.range 128,
      if (bus L).getLsbD k then (Polynomial.X ^ k : Polynomial (ZMod 2)) else 0) %ₘ
      (Polynomial.X ^ 128 + Polynomial.X ^ 7 + Polynomial.X ^ 2 + Polynomial.X + 1)

/-- R104, R106, R107: the XOR byte by byte with its two corner cases, and the bytes of the two KDF input
blocks. -/
def Obligations.XorAndBlockLayout : Prop :=
  (∀ A B : Bytes 16,
    (∀ (i : Nat) (h : i < 16), (xor16 A B)[i] = A[i] ^^^ B[i]) ∧
    xor16 A (zeros 16) = A ∧ xor16 A A = zeros 16) ∧
  ∀ N1 : Bytes 12,
    (∀ j : Config.KdfBlock,
      (kdfBlock j N1)[0] = 0x00 ∧ (kdfBlock j N1)[2] = 0x58 ∧ (kdfBlock j N1)[3] = 0x00 ∧
      ∀ (i : Nat) (h : i < 12), (kdfBlock j N1)[4 + i] = N1[i]) ∧
    (kdfBlock .first N1)[1] = 0x01 ∧ (kdfBlock .second N1)[1] = 0x02

/-- R108, R226: X1 and X2 differ in the two bits of byte 1 and nowhere else, so they are never equal, and
distinct N1 give distinct X1 and distinct X2 under one K1. -/
def Obligations.KdfInputsDiffer : Prop :=
  ∀ (K1 : Bytes 16) (N1 M1 : Bytes 12),
    (∀ j, kdfInput j K1 N1 = xor16 (kdfBlock j N1) K1) ∧
    xor16 (kdfInput .first K1 N1) (kdfInput .second K1 N1) =
      #v[0, 3, 0, 0, 0, 0, 0, 0, 0, 0, 0, 0, 0, 0, 0, 0] ∧
    kdfInput .first K1 N1 ≠ kdfInput .second K1 N1 ∧
    (N1 ≠ M1 → ∀ j, kdfInput j K1 N1 ≠ kdfInput j K1 M1)

/-- R111: N2 has no influence on the DerivedKey and N1 none on the delivered nonce, whatever AESENC is. -/
def Obligations.NonceHalvesDoNotMix : Prop :=
  ∀ (MK : Bytes 32) (K1 : Bytes 16) (N M : Bytes 24),
    (nonceN1 N = nonceN1 M → (derive MK K1 N).1 = (derive MK K1 M).1) ∧
    (nonceN2 N = nonceN2 M → (derive MK K1 N).2 = (derive MK K1 M).2) ∧
    (derive MK K1 N).2 = slice N 12 12

/-! ## Invariants and rules of the whole machine -/

/-- From every state that meets the invariants, a step gives a state that meets them. -/
def Obligations.StepKeepsTheInvariants : Prop :=
  ∀ s t : State, Inv s → step s = .next t → Inv t

/-- The state after reset meets the invariants, whatever is scheduled. -/
def Obligations.ResetMeetsTheInvariants : Prop :=
  ∀ es : List Event, Inv (State.reset.withAgenda es) ∧ KeyMatches (State.reset.withAgenda es)

/-- V5 of R41 from every state: a step in which the engine keeps its contract keeps K1 the subkey of MK. -/
def Obligations.ContractStepKeepsTheSubkey : Prop :=
  ∀ s t : State, Inv s → KeyMatches s → KeepsContract s → step s = .next t → KeyMatches t

/-- R41: V1 to V10 in every reachable state, under any sequence of steps; V5 given the engine contract. -/
def Obligations.EveryReachableStateMeetsTheInvariants : Prop :=
  (∀ s : State, Reachable s →
    (s.dkv = true → s.ph = .idle ∧ s.kv = true) ∧
    (Deriving s → s.kv = true ∧ s.dkv = false) ∧
    (LoadingKey s → s.kv = false ∧ s.dkv = false ∧ s.k1 = zeros 16) ∧
    (s.ph = .fault → s.ibuf = zeros 32 ∧ s.masterKey = zeros 32 ∧ s.k1 = zeros 16 ∧
      s.nonce = zeros 24 ∧ s.dk = zeros 32 ∧ s.ilen = 0 ∧ s.kv = false ∧ s.dkv = false ∧
      s.ovr = false ∧ s.err = 0 ∧ s.fcause ≠ 0) ∧
    (s.ph.busy = true → ∀ (w : Slot) (v : Word), ∃ t, memWrite w v s = .next t ∧
      t = { s with ovr := t.ovr } ∧ (s.ovr = true → t.ovr = true)) ∧
    (∀ (i : Nat) (h : i < 32), min s.ilen.toNat 32 ≤ i → s.ibuf[i] = 0) ∧ s.ilen.toNat ≤ 63 ∧
    (s.dkv = false → s.ph = .idle → s.dk = zeros 32 ∧ s.nonce = zeros 24) ∧
    (s.kv = false → ¬LoadingKey s → s.masterKey = zeros 32 ∧ s.k1 = zeros 16) ∧
    (s.fcause ≠ 0 ↔ s.ph = .fault)) ∧
  (∀ s : State, ContractReachable s → s.kv = true → s.k1 = dbl (Config.AESENC s.masterKey (zeros 16)))

/-- R44: the span of KV = 1. It begins only when an answer writes K1 in phase 2, it ends only at an accepted
LOADKEY, ZEROIZE, the trap or reset, and while it lasts MK and K1 never change. -/
def Obligations.KeyAndSubkeyAreFixedWhileKeyValid : Prop :=
  ∀ (s t : State) (e : Event) (rest : List Event), Inv s → s.agenda = e :: rest → step s = .next t →
    (s.kv = true → t.kv = true → t.masterKey = s.masterKey ∧ t.k1 = s.k1) ∧
    (s.kv = false → t.kv = true →
      s.ph = .initWait ∧ t.masterKey = s.masterKey ∧ (e = .aesAnswer ∨ ∃ r, e = .aesResp r ∧ t.k1 = dbl r)) ∧
    (s.kv = true → t.kv = false →
      e = .reset ∨
      (s.ph = .idle ∧ ((e = .hostWrite 2 1 ∧ t.ph = .initReq) ∨ e = .hostWrite 2 5 ∨
        (e = .hostWrite 2 2 ∧ t.ph = .fault))))

/-- R30: a write of DIN or CMD while busy is dropped and sets OVR, nothing else sets it, and what clears it is
FLUSH, ZEROIZE, the trap and reset, and nothing else. -/
def Obligations.OverrunIsSticky : Prop :=
  ∀ (s t : State) (e : Event) (rest : List Event), s.agenda = e :: rest → step s = .next t →
    (s.ph.busy = true → e.isPushOrCommand = true →
      t = { s with agenda := rest, trace := t.trace, ovr := true }) ∧
    (s.ovr = false → t.ovr = true → s.ph.busy = true ∧ e.isPushOrCommand = true) ∧
    (s.ovr = true →
      (t.ovr = false ↔
        e = .reset ∨
        (s.ph = .idle ∧ (e = .hostWrite 2 4 ∨ e = .hostWrite 2 5 ∨ (e = .hostWrite 2 2 ∧ t.ph = .fault)))))

/-- R31, R32: ERR is changed only by a CMD write examined in IDLE and by reset; FCAUSE is written only by the
trap and cleared only by reset. -/
def Obligations.CodesAreWrittenOnlyByTheirEvents : Prop :=
  ∀ (s t : State) (e : Event) (rest : List Event), s.agenda = e :: rest → step s = .next t →
    (t.err ≠ s.err → e = .reset ∨ (s.ph = .idle ∧ ∃ v, e = .hostWrite 2 v)) ∧
    (t.fcause ≠ s.fcause → e = .reset ∨
      (s.ph = .idle ∧ e = .hostWrite 2 2 ∧ t.ph = .fault ∧ t.fcause = 1)) ∧
    (e = .reset → t.err = 0 ∧ t.fcause = 0)

/-- R199, R200: in FAULT nothing but reset changes anything of the block, reads still answer, the ports show
zeros and hand nothing out; reset leads back to the reset state. -/
def Obligations.FaultIsLeftOnlyByReset : Prop :=
  ∀ (s t : State) (e : Event) (rest : List Event), Inv s → s.ph = .fault →
    s.agenda = e :: rest → step s = .next t →
    memRead 0 s = 0x584B4401 ∧ memRead 1 s = 0x00071008 ∧ memRead 4 s = 0 ∧
    aReqValid s = false ∧ gValid s = false ∧ aKey s = 0 ∧ aBlock s = 0 ∧ gKey s = 0 ∧ gNonce s = 0 ∧
    (e ≠ .reset → SameBlock t s) ∧ (e = .reset → SameBlock t State.reset) ∧
    (t.trace = s.trace ∨ ∃ x : PortEvent, x.isOutput = false ∧ t.trace = x :: s.trace)

/-- R42, R215, R217: a reset at any point, in any phase, puts every piece of state to zero, leaves the engine
no request and the buses zero. -/
def Obligations.ResetClearsEverything : Prop :=
  ∀ (s : State) (rest : List Event), s.agenda = .reset :: rest →
    ∃ t, step s = .next t ∧
      t.ibuf = zeros 32 ∧ t.ilen = 0 ∧ t.masterKey = zeros 32 ∧ t.k1 = zeros 16 ∧ t.nonce = zeros 24 ∧
      t.dk = zeros 32 ∧ t.kv = false ∧ t.dkv = false ∧ t.ovr = false ∧ t.err = 0 ∧ t.fcause = 0 ∧
      t.ph.code = 0 ∧ t.engine = none ∧ statusWord t = 0 ∧ memRead 4 t = 0 ∧ memRead 0 t = 0x584B4401 ∧
      aReqValid t = false ∧ gValid t = false ∧ aKey t = 0 ∧ aBlock t = 0 ∧ gKey t = 0 ∧ gNonce t = 0

/-- R40, R231: the machine never lets secret bytes reach an observer of port H, of the phases or of the
sequence of port events. Two states that differ at most in secret bytes step alike and stay so, and every
host read of them returns the same word. -/
def Obligations.SecretsDoNotLeak : Prop :=
  ∀ s t : State, PublicEq s t →
    (∀ w : Slot, memRead w s = memRead w t) ∧
    match step s, step t with
    | .next s', .next t' => PublicEq s' t'
    | .fault a, .fault b => a = b
    | .refused a, .refused b => a = b
    | _, _ => False

/-- R233: the hangs. A presented request stays presented under any events but the engine's acceptance and
reset; an awaited answer stays awaited under any events but an answer and reset; an output not taken stays
under any events but the consumer's, FLUSH, ZEROIZE and reset; FAULT stays until reset. -/
def Obligations.HangsLastUntilTheirEvent : Prop :=
  ∀ (s : State) (es rest : List Event), s.agenda = es ++ rest → .reset ∉ es →
    ∃ t, Host.Core.run Sys2Proof.core es.length s = .next t ∧ t.agenda = rest ∧
      (aReqValid s = true → .aesAccept ∉ es → t.ph = s.ph) ∧
      (s.ph = .initWait ∨ s.ph = .drv1Wait ∨ s.ph = .drv2Wait →
        .aesAnswer ∉ es → (∀ r, .aesResp r ∉ es) → t.ph = s.ph) ∧
      (s.ph = .idle → s.dkv = true → .take ∉ es → .hostWrite 2 4 ∉ es → .hostWrite 2 5 ∉ es →
        t.ph = .idle ∧ t.dkv = true ∧ t.dk = s.dk ∧ t.nonce = s.nonce) ∧
      (s.ph = .fault → t.ph = .fault)

/-- R66: once the host has seen BUSY = 0, whatever the other agents do before its next command, that command
is examined in IDLE or FAULT. -/
def Obligations.NotBusyLastsUntilTheNextCommand : Prop :=
  ∀ (s : State) (es rest : List Event), s.ph.busy = false → s.agenda = es ++ rest →
    (∀ v, .hostWrite 2 v ∉ es) →
    ∃ t, Host.Core.run Sys2Proof.core es.length s = .next t ∧ t.ph.busy = false ∧ t.agenda = rest

/-- R21, R22: pushing a list of bytes into an empty buffer leaves its first 32 bytes in IBUF in order, and
ILEN the length of the list, saturated at 63. -/
def Obligations.PushedBytesCollectInOrder : Prop :=
  ∀ (bs : List Byte) (s : State) (rest : List Event),
    s.ph = .idle → s.ilen = 0 → s.ibuf = zeros 32 →
    s.agenda = lineEvents (.pushs bs) ++ rest →
    ∃ t, Host.Core.run Sys2Proof.core bs.length s = .next t ∧
      t.agenda = rest ∧ t.ilen.toNat = min bs.length 63 ∧
      (∀ (j : Nat) (h : j < 32), t.ibuf[j] = bs.getD j 0) ∧
      SameBlock t { s with ibuf := t.ibuf, ilen := t.ilen }

/-- R110, R161, R232: a LOADKEY that is accepted makes one AES request, under the pushed key and the all-zero
block, and after the engine's two steps K1 is the subkey of that key. -/
def Obligations.LoadkeyBuildsTheSubkey : Prop :=
  ∀ (s : State) (rest : List Event), s.ph = .idle → s.dkv = false → s.ilen = 32 →
    s.agenda = writeOp .loadkey :: .aesAccept :: .aesAnswer :: rest →
    ∃ t, Host.Core.run Sys2Proof.core 3 s = .next t ∧
      t.kv = true ∧ t.masterKey = s.ibuf ∧ t.k1 = subkey s.ibuf ∧ t.ph = .idle ∧ t.err = 0 ∧
      t.ilen = 0 ∧ t.ibuf = zeros 32 ∧ t.dkv = false ∧ t.ovr = s.ovr ∧ t.agenda = rest ∧
      t.trace = .aesResp (Config.AESENC s.ibuf zeroBlock) :: .aesReq s.ibuf zeroBlock ::
        .hostWrite 2 1 :: s.trace

/-- R111, R161, R232: a derivation that is accepted, by either command, makes two AES requests, X1 and then
X2, and after the engine's four steps and the consumer's one it has delivered `derive(MK, K1, N)`; the key
stays, and the block is ready again. -/
def Obligations.DerivationDelivers : Prop :=
  ∀ (s : State) (op : Instr) (N : Bytes 24) (rest : List Event),
    op = .deriveSeal ∨ op = .deriveOpen → N = slice s.ibuf 0 24 →
    s.ph = .idle → s.dkv = false → s.kv = true → s.ilen = 24 →
    s.agenda = [writeOp op, .aesAccept, .aesAnswer, .aesAccept, .aesAnswer, .take] ++ rest →
    ∃ t, Host.Core.run Sys2Proof.core 6 s = .next t ∧
      SameBlock t
        { s with
          ibuf := zeros 32, ilen := 0, err := 0, dk := zeros 32, nonce := zeros 24, dkv := false } ∧
      t.agenda = rest ∧
      t.trace =
        .deliver (derive s.masterKey s.k1 N).1 (derive s.masterKey s.k1 N).2 ::
        .aesResp (Config.AESENC s.masterKey (kdfInput .second s.k1 (nonceN1 N))) ::
        .aesReq s.masterKey (kdfInput .second s.k1 (nonceN1 N)) ::
        .aesResp (Config.AESENC s.masterKey (kdfInput .first s.k1 (nonceN1 N))) ::
        .aesReq s.masterKey (kdfInput .first s.k1 (nonceN1 N)) ::
        .hostWrite 2 (encode op).2 :: s.trace

/-- R111, R218: the complete function of the block. From any idle state with an empty buffer and no pending
output, whatever key it held, pushing any 32-byte key, LOADKEY, pushing any 24-byte nonce and a derive
command lead, with the engine and the consumer each taking their steps, to the delivery of
`derive(MK, subkey(MK), N)` and leave the block idle with that key loaded. -/
def Obligations.BlockComputesTheKeyDerivation : Prop :=
  ∀ (s : State) (MK : Bytes 32) (N : Bytes 24) (op : Instr) (rest : List Event),
    op = .deriveSeal ∨ op = .deriveOpen →
    s.ph = .idle → s.dkv = false → s.ilen = 0 → s.ibuf = zeros 32 →
    s.agenda =
      lineEvents (.pushs MK.toList) ++ [writeOp .loadkey, .aesAccept, .aesAnswer] ++
      lineEvents (.pushs N.toList) ++
      [writeOp op, .aesAccept, .aesAnswer, .aesAccept, .aesAnswer, .take] ++ rest →
    ∃ t, Host.Core.run Sys2Proof.core 65 s = .next t ∧
      t.trace.head? = some (.deliver (derive MK (subkey MK) N).1 (derive MK (subkey MK) N).2) ∧
      t.agenda = rest ∧ t.ph = .idle ∧ t.kv = true ∧ t.dkv = false ∧ t.err = 0 ∧
      t.masterKey = MK ∧ t.k1 = subkey MK ∧ t.ilen = 0 ∧ t.ibuf = zeros 32 ∧
      t.dk = zeros 32 ∧ t.nonce = zeros 24
end

