-- ==== Sys2Proof/Laws/ByteString.lean ====
section
/-! SUPPORT. The byte of each byte-string operation at an index. -/

namespace Sys2Proof.Machine

@[simp] theorem getElem_slice {n : Nat} (B : Bytes n) (start len : Nat) (h : start + len ≤ n)
    (i : Nat) (hi : i < len) : (slice B start len h)[i] = B[start + i] := by
  simp [slice]

@[simp] theorem getElem_joinBytes {m n k : Nat} (A : Bytes m) (B : Bytes n) (h : m + n = k)
    (i : Nat) (hi : i < k) :
    (joinBytes A B h)[i] = if hm : i < m then A[i] else B[i - m] := by
  simp [joinBytes]

@[simp] theorem getElem_xor16 (A B : Bytes 16) (i : Nat) (hi : i < 16) :
    (xor16 A B)[i] = A[i] ^^^ B[i] := by
  simp [xor16]

theorem getElem_ofBus {n : Nat} (x : BitVec (8 * n)) (i : Nat) (hi : i < n) :
    (ofBus x)[i] = x.extractLsb' (8 * (n - 1 - i)) 8 := by
  simp [ofBus]

/-- Two joins are equal exactly when their parts are, so no byte of either part is lost. -/
theorem joinBytes_inj {m n k : Nat} {A A' : Bytes m} {B B' : Bytes n} (h : m + n = k) :
    joinBytes A B h = joinBytes A' B' h ↔ A = A' ∧ B = B' := by
  refine ⟨fun e => ⟨?_, ?_⟩, fun e => by rw [e.1, e.2]⟩
  · apply Vector.ext
    intro i hi
    have := congrArg (fun v : Bytes k => v[i]) e
    simpa [hi] using this
  · apply Vector.ext
    intro i hi
    have hk : m + i < k := by omega
    have := congrArg (fun v : Bytes k => v[m + i]) e
    simpa using this

end Sys2Proof.Machine
end

