-- ==== Sys2Proof/Laws/Decode.lean ====
section
/-! SUPPORT. What the decoder answers, said once: by slot, and by the code of a CMD word. -/

namespace Sys2Proof

theorem decode_slotCmd (v : Word) : decode 2 v = decodeCmd v := rfl

theorem decode_slotDin (v : Word) : decode 3 v = .ok (decodeDin v) := rfl

/-- `decode_slotCmd` with the slot as simp writes it. -/
@[simp] theorem decode_slotCmd_ofNat (v : Word) : decode 2#3 v = decodeCmd v := rfl

/-- `decode_slotDin` with the slot as simp writes it. -/
@[simp] theorem decode_slotDin_ofNat (v : Word) : decode 3#3 v = .ok (decodeDin v) := rfl

theorem decode_otherSlot {w : Slot} (h2 : w ≠ 2) (h3 : w ≠ 3) (v : Word) :
    decode w v = .error .noFormat := by
  unfold decode
  rw [if_neg h2, if_neg h3]

/-- Everything the decoder of CMD words can answer. -/
theorem decodeCmd_cases (v : Word) :
    (v = 1 ∧ decodeCmd v = .ok .loadkey) ∨ (v = 2 ∧ decodeCmd v = .ok .deriveSeal) ∨
    (v = 3 ∧ decodeCmd v = .ok .deriveOpen) ∨ (v = 4 ∧ decodeCmd v = .ok .flush) ∨
    (v = 5 ∧ decodeCmd v = .ok .zeroize) ∨
    (v ≠ 1 ∧ v ≠ 2 ∧ v ≠ 3 ∧ v ≠ 4 ∧ v ≠ 5 ∧ decodeCmd v = .error .illegalCommand) := by
  by_cases h1 : v = 1
  · subst h1; exact .inl ⟨rfl, by decide⟩
  by_cases h2 : v = 2
  · subst h2; exact .inr (.inl ⟨rfl, by decide⟩)
  by_cases h3 : v = 3
  · subst h3; exact .inr (.inr (.inl ⟨rfl, by decide⟩))
  by_cases h4 : v = 4
  · subst h4; exact .inr (.inr (.inr (.inl ⟨rfl, by decide⟩)))
  by_cases h5 : v = 5
  · subst h5; exact .inr (.inr (.inr (.inr (.inl ⟨rfl, by decide⟩))))
  refine .inr (.inr (.inr (.inr (.inr ⟨h1, h2, h3, h4, h5, ?_⟩))))
  unfold decodeCmd
  split
  · rfl
  · rename_i h
    have hi : v.toNat / 256 = 0 := by
      have := congrArg BitVec.toNat (not_not.mp h)
      simp [BitVec.extractLsb', Nat.shiftRight_eq_div_pow] at this
      omega
    have low : ∀ k : BitVec 8, v.extractLsb' 0 8 = k → v = k.setWidth 32 := by
      intro k hk
      have := congrArg BitVec.toNat hk
      apply BitVec.eq_of_toNat_eq
      simp [BitVec.extractLsb'] at this ⊢
      omega
    split <;> first | rfl | (rename_i hk; have := low _ hk; simp_all)

end Sys2Proof
end

