-- ==== Sys2Proof/Laws/State.lean ====
section
/-! SUPPORT. One lemma per field and per named update of the state, so that no proof unfolds an update. -/

namespace Sys2Proof.Machine

@[simp] theorem State.reset_ibuf : State.reset.ibuf = zeros 32 := rfl
@[simp] theorem State.reset_ilen : State.reset.ilen = 0 := rfl
@[simp] theorem State.reset_masterKey : State.reset.masterKey = zeros 32 := rfl
@[simp] theorem State.reset_k1 : State.reset.k1 = zeros 16 := rfl
@[simp] theorem State.reset_nonce : State.reset.nonce = zeros 24 := rfl
@[simp] theorem State.reset_dk : State.reset.dk = zeros 32 := rfl
@[simp] theorem State.reset_kv : State.reset.kv = false := rfl
@[simp] theorem State.reset_dkv : State.reset.dkv = false := rfl
@[simp] theorem State.reset_ovr : State.reset.ovr = false := rfl
@[simp] theorem State.reset_err : State.reset.err = 0 := rfl
@[simp] theorem State.reset_fcause : State.reset.fcause = 0 := rfl
@[simp] theorem State.reset_ph : State.reset.ph = .idle := rfl
@[simp] theorem State.reset_engine : State.reset.engine = none := rfl
@[simp] theorem State.reset_agenda : State.reset.agenda = [] := rfl
@[simp] theorem State.reset_trace : State.reset.trace = [] := rfl

@[simp] theorem State.record_ibuf (e : PortEvent) (s : State) : (s.record e).ibuf = s.ibuf := rfl
@[simp] theorem State.record_ilen (e : PortEvent) (s : State) : (s.record e).ilen = s.ilen := rfl
@[simp] theorem State.record_masterKey (e : PortEvent) (s : State) : (s.record e).masterKey = s.masterKey := rfl
@[simp] theorem State.record_k1 (e : PortEvent) (s : State) : (s.record e).k1 = s.k1 := rfl
@[simp] theorem State.record_nonce (e : PortEvent) (s : State) : (s.record e).nonce = s.nonce := rfl
@[simp] theorem State.record_dk (e : PortEvent) (s : State) : (s.record e).dk = s.dk := rfl
@[simp] theorem State.record_kv (e : PortEvent) (s : State) : (s.record e).kv = s.kv := rfl
@[simp] theorem State.record_dkv (e : PortEvent) (s : State) : (s.record e).dkv = s.dkv := rfl
@[simp] theorem State.record_ovr (e : PortEvent) (s : State) : (s.record e).ovr = s.ovr := rfl
@[simp] theorem State.record_err (e : PortEvent) (s : State) : (s.record e).err = s.err := rfl
@[simp] theorem State.record_fcause (e : PortEvent) (s : State) : (s.record e).fcause = s.fcause := rfl
@[simp] theorem State.record_ph (e : PortEvent) (s : State) : (s.record e).ph = s.ph := rfl
@[simp] theorem State.record_engine (e : PortEvent) (s : State) : (s.record e).engine = s.engine := rfl
@[simp] theorem State.record_agenda (e : PortEvent) (s : State) : (s.record e).agenda = s.agenda := rfl
@[simp] theorem State.record_trace (e : PortEvent) (s : State) : (s.record e).trace = e :: s.trace := rfl

@[simp] theorem State.consume_ibuf (s : State) : s.consume.ibuf = zeros 32 := rfl
@[simp] theorem State.consume_ilen (s : State) : s.consume.ilen = 0 := rfl
@[simp] theorem State.consume_masterKey (s : State) : s.consume.masterKey = s.masterKey := rfl
@[simp] theorem State.consume_k1 (s : State) : s.consume.k1 = s.k1 := rfl
@[simp] theorem State.consume_nonce (s : State) : s.consume.nonce = s.nonce := rfl
@[simp] theorem State.consume_dk (s : State) : s.consume.dk = s.dk := rfl
@[simp] theorem State.consume_kv (s : State) : s.consume.kv = s.kv := rfl
@[simp] theorem State.consume_dkv (s : State) : s.consume.dkv = s.dkv := rfl
@[simp] theorem State.consume_ovr (s : State) : s.consume.ovr = s.ovr := rfl
@[simp] theorem State.consume_err (s : State) : s.consume.err = s.err := rfl
@[simp] theorem State.consume_fcause (s : State) : s.consume.fcause = s.fcause := rfl
@[simp] theorem State.consume_ph (s : State) : s.consume.ph = s.ph := rfl
@[simp] theorem State.consume_engine (s : State) : s.consume.engine = s.engine := rfl
@[simp] theorem State.consume_agenda (s : State) : s.consume.agenda = s.agenda := rfl
@[simp] theorem State.consume_trace (s : State) : s.consume.trace = s.trace := rfl

@[simp] theorem State.raiseError_ibuf (c : BitVec 4) (s : State) : (s.raiseError c).ibuf = s.ibuf := rfl
@[simp] theorem State.raiseError_ilen (c : BitVec 4) (s : State) : (s.raiseError c).ilen = s.ilen := rfl
@[simp] theorem State.raiseError_masterKey (c : BitVec 4) (s : State) : (s.raiseError c).masterKey = s.masterKey := rfl
@[simp] theorem State.raiseError_k1 (c : BitVec 4) (s : State) : (s.raiseError c).k1 = s.k1 := rfl
@[simp] theorem State.raiseError_nonce (c : BitVec 4) (s : State) : (s.raiseError c).nonce = s.nonce := rfl
@[simp] theorem State.raiseError_dk (c : BitVec 4) (s : State) : (s.raiseError c).dk = s.dk := rfl
@[simp] theorem State.raiseError_kv (c : BitVec 4) (s : State) : (s.raiseError c).kv = s.kv := rfl
@[simp] theorem State.raiseError_dkv (c : BitVec 4) (s : State) : (s.raiseError c).dkv = s.dkv := rfl
@[simp] theorem State.raiseError_ovr (c : BitVec 4) (s : State) : (s.raiseError c).ovr = s.ovr := rfl
@[simp] theorem State.raiseError_err (c : BitVec 4) (s : State) : (s.raiseError c).err = c := rfl
@[simp] theorem State.raiseError_fcause (c : BitVec 4) (s : State) : (s.raiseError c).fcause = s.fcause := rfl
@[simp] theorem State.raiseError_ph (c : BitVec 4) (s : State) : (s.raiseError c).ph = s.ph := rfl
@[simp] theorem State.raiseError_engine (c : BitVec 4) (s : State) : (s.raiseError c).engine = s.engine := rfl
@[simp] theorem State.raiseError_agenda (c : BitVec 4) (s : State) : (s.raiseError c).agenda = s.agenda := rfl
@[simp] theorem State.raiseError_trace (c : BitVec 4) (s : State) : (s.raiseError c).trace = s.trace := rfl

@[simp] theorem State.raiseTrap_ibuf (c : BitVec 4) (s : State) : (s.raiseTrap c).ibuf = zeros 32 := rfl
@[simp] theorem State.raiseTrap_ilen (c : BitVec 4) (s : State) : (s.raiseTrap c).ilen = 0 := rfl
@[simp] theorem State.raiseTrap_masterKey (c : BitVec 4) (s : State) : (s.raiseTrap c).masterKey = zeros 32 := rfl
@[simp] theorem State.raiseTrap_k1 (c : BitVec 4) (s : State) : (s.raiseTrap c).k1 = zeros 16 := rfl
@[simp] theorem State.raiseTrap_nonce (c : BitVec 4) (s : State) : (s.raiseTrap c).nonce = zeros 24 := rfl
@[simp] theorem State.raiseTrap_dk (c : BitVec 4) (s : State) : (s.raiseTrap c).dk = zeros 32 := rfl
@[simp] theorem State.raiseTrap_kv (c : BitVec 4) (s : State) : (s.raiseTrap c).kv = false := rfl
@[simp] theorem State.raiseTrap_dkv (c : BitVec 4) (s : State) : (s.raiseTrap c).dkv = false := rfl
@[simp] theorem State.raiseTrap_ovr (c : BitVec 4) (s : State) : (s.raiseTrap c).ovr = false := rfl
@[simp] theorem State.raiseTrap_err (c : BitVec 4) (s : State) : (s.raiseTrap c).err = 0 := rfl
@[simp] theorem State.raiseTrap_fcause (c : BitVec 4) (s : State) : (s.raiseTrap c).fcause = c := rfl
@[simp] theorem State.raiseTrap_ph (c : BitVec 4) (s : State) : (s.raiseTrap c).ph = .fault := rfl
@[simp] theorem State.raiseTrap_engine (c : BitVec 4) (s : State) : (s.raiseTrap c).engine = s.engine := rfl
@[simp] theorem State.raiseTrap_agenda (c : BitVec 4) (s : State) : (s.raiseTrap c).agenda = s.agenda := rfl
@[simp] theorem State.raiseTrap_trace (c : BitVec 4) (s : State) : (s.raiseTrap c).trace = s.trace := rfl

@[simp] theorem State.applyReset_ibuf (s : State) : s.applyReset.ibuf = zeros 32 := rfl
@[simp] theorem State.applyReset_ilen (s : State) : s.applyReset.ilen = 0 := rfl
@[simp] theorem State.applyReset_masterKey (s : State) : s.applyReset.masterKey = zeros 32 := rfl
@[simp] theorem State.applyReset_k1 (s : State) : s.applyReset.k1 = zeros 16 := rfl
@[simp] theorem State.applyReset_nonce (s : State) : s.applyReset.nonce = zeros 24 := rfl
@[simp] theorem State.applyReset_dk (s : State) : s.applyReset.dk = zeros 32 := rfl
@[simp] theorem State.applyReset_kv (s : State) : s.applyReset.kv = false := rfl
@[simp] theorem State.applyReset_dkv (s : State) : s.applyReset.dkv = false := rfl
@[simp] theorem State.applyReset_ovr (s : State) : s.applyReset.ovr = false := rfl
@[simp] theorem State.applyReset_err (s : State) : s.applyReset.err = 0 := rfl
@[simp] theorem State.applyReset_fcause (s : State) : s.applyReset.fcause = 0 := rfl
@[simp] theorem State.applyReset_ph (s : State) : s.applyReset.ph = .idle := rfl
@[simp] theorem State.applyReset_engine (s : State) : s.applyReset.engine = none := rfl
@[simp] theorem State.applyReset_agenda (s : State) : s.applyReset.agenda = s.agenda := rfl
@[simp] theorem State.applyReset_trace (s : State) : s.applyReset.trace = s.trace := rfl

@[simp] theorem State.dropCall_ibuf (s : State) : s.dropCall.ibuf = s.ibuf := rfl
@[simp] theorem State.dropCall_ilen (s : State) : s.dropCall.ilen = s.ilen := rfl
@[simp] theorem State.dropCall_masterKey (s : State) : s.dropCall.masterKey = s.masterKey := rfl
@[simp] theorem State.dropCall_k1 (s : State) : s.dropCall.k1 = s.k1 := rfl
@[simp] theorem State.dropCall_nonce (s : State) : s.dropCall.nonce = zeros 24 := rfl
@[simp] theorem State.dropCall_dk (s : State) : s.dropCall.dk = zeros 32 := rfl
@[simp] theorem State.dropCall_kv (s : State) : s.dropCall.kv = s.kv := rfl
@[simp] theorem State.dropCall_dkv (s : State) : s.dropCall.dkv = false := rfl
@[simp] theorem State.dropCall_ovr (s : State) : s.dropCall.ovr = false := rfl
@[simp] theorem State.dropCall_err (s : State) : s.dropCall.err = 0 := rfl
@[simp] theorem State.dropCall_fcause (s : State) : s.dropCall.fcause = s.fcause := rfl
@[simp] theorem State.dropCall_ph (s : State) : s.dropCall.ph = s.ph := rfl
@[simp] theorem State.dropCall_engine (s : State) : s.dropCall.engine = s.engine := rfl
@[simp] theorem State.dropCall_agenda (s : State) : s.dropCall.agenda = s.agenda := rfl
@[simp] theorem State.dropCall_trace (s : State) : s.dropCall.trace = s.trace := rfl

@[simp] theorem State.withAgenda_ibuf (es : List Event) (s : State) : (s.withAgenda es).ibuf = s.ibuf := rfl
@[simp] theorem State.withAgenda_ilen (es : List Event) (s : State) : (s.withAgenda es).ilen = s.ilen := rfl
@[simp] theorem State.withAgenda_masterKey (es : List Event) (s : State) : (s.withAgenda es).masterKey = s.masterKey := rfl
@[simp] theorem State.withAgenda_k1 (es : List Event) (s : State) : (s.withAgenda es).k1 = s.k1 := rfl
@[simp] theorem State.withAgenda_nonce (es : List Event) (s : State) : (s.withAgenda es).nonce = s.nonce := rfl
@[simp] theorem State.withAgenda_dk (es : List Event) (s : State) : (s.withAgenda es).dk = s.dk := rfl
@[simp] theorem State.withAgenda_kv (es : List Event) (s : State) : (s.withAgenda es).kv = s.kv := rfl
@[simp] theorem State.withAgenda_dkv (es : List Event) (s : State) : (s.withAgenda es).dkv = s.dkv := rfl
@[simp] theorem State.withAgenda_ovr (es : List Event) (s : State) : (s.withAgenda es).ovr = s.ovr := rfl
@[simp] theorem State.withAgenda_err (es : List Event) (s : State) : (s.withAgenda es).err = s.err := rfl
@[simp] theorem State.withAgenda_fcause (es : List Event) (s : State) : (s.withAgenda es).fcause = s.fcause := rfl
@[simp] theorem State.withAgenda_ph (es : List Event) (s : State) : (s.withAgenda es).ph = s.ph := rfl
@[simp] theorem State.withAgenda_engine (es : List Event) (s : State) : (s.withAgenda es).engine = s.engine := rfl
@[simp] theorem State.withAgenda_agenda (es : List Event) (s : State) : (s.withAgenda es).agenda = es := rfl
@[simp] theorem State.withAgenda_trace (es : List Event) (s : State) : (s.withAgenda es).trace = s.trace := rfl

@[simp] theorem State.withFetchWord_ibuf (s : State) (n w : Nat) : (s.withFetchWord n w).ibuf = s.ibuf := rfl
@[simp] theorem State.withFetchWord_ilen (s : State) (n w : Nat) : (s.withFetchWord n w).ilen = s.ilen := rfl
@[simp] theorem State.withFetchWord_masterKey (s : State) (n w : Nat) : (s.withFetchWord n w).masterKey = s.masterKey := rfl
@[simp] theorem State.withFetchWord_k1 (s : State) (n w : Nat) : (s.withFetchWord n w).k1 = s.k1 := rfl
@[simp] theorem State.withFetchWord_nonce (s : State) (n w : Nat) : (s.withFetchWord n w).nonce = s.nonce := rfl
@[simp] theorem State.withFetchWord_dk (s : State) (n w : Nat) : (s.withFetchWord n w).dk = s.dk := rfl
@[simp] theorem State.withFetchWord_kv (s : State) (n w : Nat) : (s.withFetchWord n w).kv = s.kv := rfl
@[simp] theorem State.withFetchWord_dkv (s : State) (n w : Nat) : (s.withFetchWord n w).dkv = s.dkv := rfl
@[simp] theorem State.withFetchWord_ovr (s : State) (n w : Nat) : (s.withFetchWord n w).ovr = s.ovr := rfl
@[simp] theorem State.withFetchWord_err (s : State) (n w : Nat) : (s.withFetchWord n w).err = s.err := rfl
@[simp] theorem State.withFetchWord_fcause (s : State) (n w : Nat) : (s.withFetchWord n w).fcause = s.fcause := rfl
@[simp] theorem State.withFetchWord_ph (s : State) (n w : Nat) : (s.withFetchWord n w).ph = s.ph := rfl
@[simp] theorem State.withFetchWord_engine (s : State) (n w : Nat) : (s.withFetchWord n w).engine = s.engine := rfl
@[simp] theorem State.withFetchWord_agenda (s : State) (n w : Nat) : (s.withFetchWord n w).agenda = tableEvent n w :: s.agenda := rfl
@[simp] theorem State.withFetchWord_trace (s : State) (n w : Nat) : (s.withFetchWord n w).trace = s.trace := rfl

end Sys2Proof.Machine
end

