-- ==== Sys2Proof/Laws/Ops.lean ====
section
/-! SUPPORT. What the shared operations do, said once: the gate by phase, the stored byte and the count of
a push, the checks of the derive commands, and a host write by slot and word. -/

namespace Sys2Proof.Machine

@[simp] theorem hostGate_fault {s : State} (h : s.ph = .fault) (f : State → State) :
    hostGate f s = s := by simp [hostGate, h]

@[simp] theorem hostGate_idle {s : State} (h : s.ph = .idle) (f : State → State) :
    hostGate f s = f s := by simp [hostGate, h]

theorem hostGate_busy {s : State} (h : s.ph.busy = true) (f : State → State) :
    hostGate f s = { s with ovr := true } := by
  cases hp : s.ph <;> simp_all [hostGate, Phase.busy]

/-- Every phase is IDLE, FAULT or busy (R33). -/
theorem Phase.trichotomy (p : Phase) : p = .idle ∨ p = .fault ∨ p.busy = true := by
  cases p <;> simp [Phase.busy]

/-- Everything the gate can do. -/
theorem hostGate_cases (f : State → State) (s : State) :
    (s.ph = .idle ∧ hostGate f s = f s) ∨ (s.ph = .fault ∧ hostGate f s = s) ∨
    (s.ph.busy = true ∧ hostGate f s = { s with ovr := true }) := by
  rcases Phase.trichotomy s.ph with h | h | h
  · exact .inl ⟨h, hostGate_idle h f⟩
  · exact .inr (.inl ⟨h, hostGate_fault h f⟩)
  · exact .inr (.inr ⟨h, hostGate_busy h f⟩)

/-- Everything LOADKEY examined in IDLE can do. -/
theorem loadkeyExamined_cases (s : State) :
    (s.dkv = true ∧ loadkeyExamined s = s.consume.raiseError 5) ∨
    (s.dkv = false ∧ s.ilen ≠ 32 ∧ loadkeyExamined s = s.consume.raiseError 1) ∨
    (s.dkv = false ∧ s.ilen = 32 ∧ loadkeyExamined s =
      { s.consume with masterKey := s.ibuf, k1 := zeros 16, kv := false, err := 0, ph := .initReq }) := by
  cases hd : s.dkv <;> by_cases hl : s.ilen = 32 <;>
    simp_all [loadkeyExamined, keyLength, keyOperand]

/-- Everything a derive command examined in IDLE can do. -/
theorem deriveExamined_cases (wrongLength : State → State) (s : State) :
    (s.dkv = true ∧ deriveExamined wrongLength s = s.consume.raiseError 5) ∨
    (s.dkv = false ∧ s.kv = false ∧ deriveExamined wrongLength s = s.consume.raiseError 4) ∨
    (s.dkv = false ∧ s.kv = true ∧ s.ilen ≠ 24 ∧ deriveExamined wrongLength s = wrongLength s) ∨
    (s.dkv = false ∧ s.kv = true ∧ s.ilen = 24 ∧ deriveExamined wrongLength s =
      { s.consume with nonce := slice s.ibuf 0 24, err := 0, ph := .drv1Req }) := by
  cases hd : s.dkv <;> cases hk : s.kv <;> by_cases hl : s.ilen = 24 <;>
    simp_all [deriveExamined, nonceLength, startDerivation, nonceOperand]

/-- A host write of CMD or DIN is one of the six operations or the illegal command, always through the gate. -/
theorem memWrite_gated {w : Slot} (hw : w = 2 ∨ w = 3) (v : Word) :
    ∃ f : State → State, ∀ s, memWrite w v s = .next (hostGate f s) := by
  rcases hw with rfl | rfl
  · rcases decodeCmd_cases v with h | h | h | h | h | h
    · exact ⟨_, fun s => by simp only [memWrite, decode_slotCmd, h.2, exec]; rfl⟩
    · exact ⟨_, fun s => by simp only [memWrite, decode_slotCmd, h.2, exec]; rfl⟩
    · exact ⟨_, fun s => by simp only [memWrite, decode_slotCmd, h.2, exec]; rfl⟩
    · exact ⟨_, fun s => by simp only [memWrite, decode_slotCmd, h.2, exec]; rfl⟩
    · exact ⟨_, fun s => by simp only [memWrite, decode_slotCmd, h.2, exec]; rfl⟩
    · exact ⟨_, fun s => by simp only [memWrite, decode_slotCmd, h.2.2.2.2.2]; rfl⟩
  · exact ⟨_, fun s => rfl⟩

/-- Everything a CMD write can do, by its word: the five commands and the illegal command. -/
theorem memWrite_cmd_cases (v : Word) :
    (v = 1 ∧ ∀ s, memWrite 2 v s = .next (hostGate loadkeyExamined s)) ∨
    (v = 2 ∧ ∀ s, memWrite 2 v s = .next (hostGate (deriveExamined (State.raiseTrap 1)) s)) ∨
    (v = 3 ∧ ∀ s, memWrite 2 v s =
      .next (hostGate (deriveExamined fun t => t.consume.raiseError 2) s)) ∨
    (v = 4 ∧ ∀ s, memWrite 2 v s = .next (hostGate (fun t => t.consume.dropCall) s)) ∨
    (v = 5 ∧ ∀ s, memWrite 2 v s = .next (hostGate
      (fun t => { t.consume.dropCall with masterKey := zeros 32, k1 := zeros 16, kv := false }) s)) ∨
    ((v.toNat = 0 ∨ 5 < v.toNat) ∧ ∀ s, memWrite 2 v s = .next (hostGate (State.raiseError 3) s)) := by
  rcases decodeCmd_cases v with h | h | h | h | h | h
  · exact .inl ⟨h.1, fun s => by simp only [memWrite, decode_slotCmd, h.2, exec]; rfl⟩
  · exact .inr (.inl ⟨h.1, fun s => by simp only [memWrite, decode_slotCmd, h.2, exec]; rfl⟩)
  · exact .inr (.inr (.inl ⟨h.1, fun s => by simp only [memWrite, decode_slotCmd, h.2, exec]; rfl⟩))
  · exact .inr (.inr (.inr (.inl
      ⟨h.1, fun s => by simp only [memWrite, decode_slotCmd, h.2, exec]; rfl⟩)))
  · exact .inr (.inr (.inr (.inr (.inl
      ⟨h.1, fun s => by simp only [memWrite, decode_slotCmd, h.2, exec]; rfl⟩))))
  · refine .inr (.inr (.inr (.inr (.inr
      ⟨?_, fun s => by simp only [memWrite, decode_slotCmd, h.2.2.2.2.2]; rfl⟩))))
    obtain ⟨h1, h2, h3, h4, h5, -⟩ := h
    bv_omega

theorem memWrite_otherSlot {w : Slot} (h2 : w ≠ 2) (h3 : w ≠ 3) (v : Word) (s : State) :
    memWrite w v s = .next s := by
  simp [memWrite, decode_otherSlot h2 h3]

end Sys2Proof.Machine
end

