-- ==== Sys2Proof/Laws/PerInstr.lean ====
section
/-! SUPPORT. The per-instruction family Encoding: every instruction is well-formed, and the slot and word
it is encoded to match its own row of the opcode table (30_encoding.md R86). -/

namespace Sys2Proof.Laws.Encoding

/-- The instruction is well-formed and its encoding matches its row. -/
def Statement (i : Instr) : Prop :=
  i.wellFormed = true ∧ i.row.accepts (encode i).1 (encode i).2 = true

theorem loadkey : Statement .loadkey := ⟨rfl, by decide⟩
theorem deriveSeal : Statement .deriveSeal := ⟨rfl, by decide⟩
theorem deriveOpen : Statement .deriveOpen := ⟨rfl, by decide⟩
theorem flush : Statement .flush := ⟨rfl, by decide⟩
theorem zeroize : Statement .zeroize := ⟨rfl, by decide⟩
theorem push (b : Byte) : Statement (.push b) :=
  ⟨rfl, by simp [Instr.row, TableRow.accepts, encode]⟩

end Sys2Proof.Laws.Encoding
end

