-- ==== Sys2Proof/Laws/Sequencer.lean ====
section
/-! SUPPORT. The steps that are not host operations: one lemma per field and per step, the step of each
phase, and everything the engine, an answer and the consumer can do. -/

namespace Sys2Proof.Machine

@[simp] theorem pushExamined_ibuf (b : Byte) (s : State) : (pushExamined b s).ibuf = storedByte s b := rfl
@[simp] theorem pushExamined_ilen (b : Byte) (s : State) : (pushExamined b s).ilen = countedPush s := rfl
@[simp] theorem pushExamined_masterKey (b : Byte) (s : State) : (pushExamined b s).masterKey = s.masterKey := rfl
@[simp] theorem pushExamined_k1 (b : Byte) (s : State) : (pushExamined b s).k1 = s.k1 := rfl
@[simp] theorem pushExamined_nonce (b : Byte) (s : State) : (pushExamined b s).nonce = s.nonce := rfl
@[simp] theorem pushExamined_dk (b : Byte) (s : State) : (pushExamined b s).dk = s.dk := rfl
@[simp] theorem pushExamined_kv (b : Byte) (s : State) : (pushExamined b s).kv = s.kv := rfl
@[simp] theorem pushExamined_dkv (b : Byte) (s : State) : (pushExamined b s).dkv = s.dkv := rfl
@[simp] theorem pushExamined_ovr (b : Byte) (s : State) : (pushExamined b s).ovr = s.ovr := rfl
@[simp] theorem pushExamined_err (b : Byte) (s : State) : (pushExamined b s).err = s.err := rfl
@[simp] theorem pushExamined_fcause (b : Byte) (s : State) : (pushExamined b s).fcause = s.fcause := rfl
@[simp] theorem pushExamined_ph (b : Byte) (s : State) : (pushExamined b s).ph = s.ph := rfl
@[simp] theorem pushExamined_engine (b : Byte) (s : State) : (pushExamined b s).engine = s.engine := rfl
@[simp] theorem pushExamined_agenda (b : Byte) (s : State) : (pushExamined b s).agenda = s.agenda := rfl
@[simp] theorem pushExamined_trace (b : Byte) (s : State) : (pushExamined b s).trace = s.trace := rfl

@[simp] theorem startDerivation_ibuf (s : State) : (startDerivation s).ibuf = zeros 32 := rfl
@[simp] theorem startDerivation_ilen (s : State) : (startDerivation s).ilen = 0 := rfl
@[simp] theorem startDerivation_masterKey (s : State) : (startDerivation s).masterKey = s.masterKey := rfl
@[simp] theorem startDerivation_k1 (s : State) : (startDerivation s).k1 = s.k1 := rfl
@[simp] theorem startDerivation_nonce (s : State) : (startDerivation s).nonce = nonceOperand s := rfl
@[simp] theorem startDerivation_dk (s : State) : (startDerivation s).dk = s.dk := rfl
@[simp] theorem startDerivation_kv (s : State) : (startDerivation s).kv = s.kv := rfl
@[simp] theorem startDerivation_dkv (s : State) : (startDerivation s).dkv = s.dkv := rfl
@[simp] theorem startDerivation_ovr (s : State) : (startDerivation s).ovr = s.ovr := rfl
@[simp] theorem startDerivation_err (s : State) : (startDerivation s).err = 0 := rfl
@[simp] theorem startDerivation_fcause (s : State) : (startDerivation s).fcause = s.fcause := rfl
@[simp] theorem startDerivation_ph (s : State) : (startDerivation s).ph = .drv1Req := rfl
@[simp] theorem startDerivation_engine (s : State) : (startDerivation s).engine = s.engine := rfl
@[simp] theorem startDerivation_agenda (s : State) : (startDerivation s).agenda = s.agenda := rfl
@[simp] theorem startDerivation_trace (s : State) : (startDerivation s).trace = s.trace := rfl

@[simp] theorem acceptRequest_ibuf (b : Bytes 16) (p : Phase) (s : State) : (acceptRequest b p s).ibuf = s.ibuf := rfl
@[simp] theorem acceptRequest_ilen (b : Bytes 16) (p : Phase) (s : State) : (acceptRequest b p s).ilen = s.ilen := rfl
@[simp] theorem acceptRequest_masterKey (b : Bytes 16) (p : Phase) (s : State) : (acceptRequest b p s).masterKey = s.masterKey := rfl
@[simp] theorem acceptRequest_k1 (b : Bytes 16) (p : Phase) (s : State) : (acceptRequest b p s).k1 = s.k1 := rfl
@[simp] theorem acceptRequest_nonce (b : Bytes 16) (p : Phase) (s : State) : (acceptRequest b p s).nonce = s.nonce := rfl
@[simp] theorem acceptRequest_dk (b : Bytes 16) (p : Phase) (s : State) : (acceptRequest b p s).dk = s.dk := rfl
@[simp] theorem acceptRequest_kv (b : Bytes 16) (p : Phase) (s : State) : (acceptRequest b p s).kv = s.kv := rfl
@[simp] theorem acceptRequest_dkv (b : Bytes 16) (p : Phase) (s : State) : (acceptRequest b p s).dkv = s.dkv := rfl
@[simp] theorem acceptRequest_ovr (b : Bytes 16) (p : Phase) (s : State) : (acceptRequest b p s).ovr = s.ovr := rfl
@[simp] theorem acceptRequest_err (b : Bytes 16) (p : Phase) (s : State) : (acceptRequest b p s).err = s.err := rfl
@[simp] theorem acceptRequest_fcause (b : Bytes 16) (p : Phase) (s : State) : (acceptRequest b p s).fcause = s.fcause := rfl
@[simp] theorem acceptRequest_ph (b : Bytes 16) (p : Phase) (s : State) : (acceptRequest b p s).ph = p := rfl
@[simp] theorem acceptRequest_engine (b : Bytes 16) (p : Phase) (s : State) : (acceptRequest b p s).engine = some ⟨s.masterKey, b⟩ := rfl
@[simp] theorem acceptRequest_agenda (b : Bytes 16) (p : Phase) (s : State) : (acceptRequest b p s).agenda = s.agenda := rfl
@[simp] theorem acceptRequest_trace (b : Bytes 16) (p : Phase) (s : State) : (acceptRequest b p s).trace = .aesReq s.masterKey b :: s.trace := rfl

@[simp] theorem seqInitResp_ibuf (r : Bytes 16) (s : State) : (seqInitResp r s).ibuf = s.ibuf := rfl
@[simp] theorem seqInitResp_ilen (r : Bytes 16) (s : State) : (seqInitResp r s).ilen = s.ilen := rfl
@[simp] theorem seqInitResp_masterKey (r : Bytes 16) (s : State) : (seqInitResp r s).masterKey = s.masterKey := rfl
@[simp] theorem seqInitResp_k1 (r : Bytes 16) (s : State) : (seqInitResp r s).k1 = dbl r := rfl
@[simp] theorem seqInitResp_nonce (r : Bytes 16) (s : State) : (seqInitResp r s).nonce = s.nonce := rfl
@[simp] theorem seqInitResp_dk (r : Bytes 16) (s : State) : (seqInitResp r s).dk = s.dk := rfl
@[simp] theorem seqInitResp_kv (r : Bytes 16) (s : State) : (seqInitResp r s).kv = true := rfl
@[simp] theorem seqInitResp_dkv (r : Bytes 16) (s : State) : (seqInitResp r s).dkv = s.dkv := rfl
@[simp] theorem seqInitResp_ovr (r : Bytes 16) (s : State) : (seqInitResp r s).ovr = s.ovr := rfl
@[simp] theorem seqInitResp_err (r : Bytes 16) (s : State) : (seqInitResp r s).err = s.err := rfl
@[simp] theorem seqInitResp_fcause (r : Bytes 16) (s : State) : (seqInitResp r s).fcause = s.fcause := rfl
@[simp] theorem seqInitResp_ph (r : Bytes 16) (s : State) : (seqInitResp r s).ph = .idle := rfl
@[simp] theorem seqInitResp_engine (r : Bytes 16) (s : State) : (seqInitResp r s).engine = s.engine := rfl
@[simp] theorem seqInitResp_agenda (r : Bytes 16) (s : State) : (seqInitResp r s).agenda = s.agenda := rfl
@[simp] theorem seqInitResp_trace (r : Bytes 16) (s : State) : (seqInitResp r s).trace = s.trace := rfl

@[simp] theorem seqDrv1Resp_ibuf (r : Bytes 16) (s : State) : (seqDrv1Resp r s).ibuf = s.ibuf := rfl
@[simp] theorem seqDrv1Resp_ilen (r : Bytes 16) (s : State) : (seqDrv1Resp r s).ilen = s.ilen := rfl
@[simp] theorem seqDrv1Resp_masterKey (r : Bytes 16) (s : State) : (seqDrv1Resp r s).masterKey = s.masterKey := rfl
@[simp] theorem seqDrv1Resp_k1 (r : Bytes 16) (s : State) : (seqDrv1Resp r s).k1 = s.k1 := rfl
@[simp] theorem seqDrv1Resp_nonce (r : Bytes 16) (s : State) : (seqDrv1Resp r s).nonce = s.nonce := rfl
@[simp] theorem seqDrv1Resp_dk (r : Bytes 16) (s : State) : (seqDrv1Resp r s).dk = withLowHalf s.dk r := rfl
@[simp] theorem seqDrv1Resp_kv (r : Bytes 16) (s : State) : (seqDrv1Resp r s).kv = s.kv := rfl
@[simp] theorem seqDrv1Resp_dkv (r : Bytes 16) (s : State) : (seqDrv1Resp r s).dkv = s.dkv := rfl
@[simp] theorem seqDrv1Resp_ovr (r : Bytes 16) (s : State) : (seqDrv1Resp r s).ovr = s.ovr := rfl
@[simp] theorem seqDrv1Resp_err (r : Bytes 16) (s : State) : (seqDrv1Resp r s).err = s.err := rfl
@[simp] theorem seqDrv1Resp_fcause (r : Bytes 16) (s : State) : (seqDrv1Resp r s).fcause = s.fcause := rfl
@[simp] theorem seqDrv1Resp_ph (r : Bytes 16) (s : State) : (seqDrv1Resp r s).ph = .drv2Req := rfl
@[simp] theorem seqDrv1Resp_engine (r : Bytes 16) (s : State) : (seqDrv1Resp r s).engine = s.engine := rfl
@[simp] theorem seqDrv1Resp_agenda (r : Bytes 16) (s : State) : (seqDrv1Resp r s).agenda = s.agenda := rfl
@[simp] theorem seqDrv1Resp_trace (r : Bytes 16) (s : State) : (seqDrv1Resp r s).trace = s.trace := rfl

@[simp] theorem seqDrv2Resp_ibuf (r : Bytes 16) (s : State) : (seqDrv2Resp r s).ibuf = s.ibuf := rfl
@[simp] theorem seqDrv2Resp_ilen (r : Bytes 16) (s : State) : (seqDrv2Resp r s).ilen = s.ilen := rfl
@[simp] theorem seqDrv2Resp_masterKey (r : Bytes 16) (s : State) : (seqDrv2Resp r s).masterKey = s.masterKey := rfl
@[simp] theorem seqDrv2Resp_k1 (r : Bytes 16) (s : State) : (seqDrv2Resp r s).k1 = s.k1 := rfl
@[simp] theorem seqDrv2Resp_nonce (r : Bytes 16) (s : State) : (seqDrv2Resp r s).nonce = s.nonce := rfl
@[simp] theorem seqDrv2Resp_dk (r : Bytes 16) (s : State) : (seqDrv2Resp r s).dk = withHighHalf s.dk r := rfl
@[simp] theorem seqDrv2Resp_kv (r : Bytes 16) (s : State) : (seqDrv2Resp r s).kv = s.kv := rfl
@[simp] theorem seqDrv2Resp_dkv (r : Bytes 16) (s : State) : (seqDrv2Resp r s).dkv = true := rfl
@[simp] theorem seqDrv2Resp_ovr (r : Bytes 16) (s : State) : (seqDrv2Resp r s).ovr = s.ovr := rfl
@[simp] theorem seqDrv2Resp_err (r : Bytes 16) (s : State) : (seqDrv2Resp r s).err = s.err := rfl
@[simp] theorem seqDrv2Resp_fcause (r : Bytes 16) (s : State) : (seqDrv2Resp r s).fcause = s.fcause := rfl
@[simp] theorem seqDrv2Resp_ph (r : Bytes 16) (s : State) : (seqDrv2Resp r s).ph = .idle := rfl
@[simp] theorem seqDrv2Resp_engine (r : Bytes 16) (s : State) : (seqDrv2Resp r s).engine = s.engine := rfl
@[simp] theorem seqDrv2Resp_agenda (r : Bytes 16) (s : State) : (seqDrv2Resp r s).agenda = s.agenda := rfl
@[simp] theorem seqDrv2Resp_trace (r : Bytes 16) (s : State) : (seqDrv2Resp r s).trace = s.trace := rfl

/-- Everything a ready engine can do. -/
theorem engineReady_cases (s : State) :
    (s.ph = .initReq ∧ engineReady s = acceptRequest zeroBlock .initWait s) ∨
    (s.ph = .drv1Req ∧ engineReady s = acceptRequest (requestX .first s) .drv1Wait s) ∨
    (s.ph = .drv2Req ∧ engineReady s = acceptRequest (requestX .second s) .drv2Wait s) ∨
    (s.ph ≠ .initReq ∧ s.ph ≠ .drv1Req ∧ s.ph ≠ .drv2Req ∧ engineReady s = s) := by
  cases hp : s.ph <;> simp [engineReady, hp, seqInitReq, seqDrv1Req, seqDrv2Req]

/-- Everything the block can make of an answer. -/
theorem takeAnswer_cases (r : Bytes 16) (s : State) :
    (s.ph = .initWait ∧ takeAnswer r s = seqInitResp r s) ∨
    (s.ph = .drv1Wait ∧ takeAnswer r s = seqDrv1Resp r s) ∨
    (s.ph = .drv2Wait ∧ takeAnswer r s = seqDrv2Resp r s) ∨
    (s.ph ≠ .initWait ∧ s.ph ≠ .drv1Wait ∧ s.ph ≠ .drv2Wait ∧ takeAnswer r s = s) := by
  cases hp : s.ph <;> simp [takeAnswer, hp]

/-- The state in which an answer is taken: it has crossed port A and the engine holds no request. -/
def afterAnswer (r : Bytes 16) (s : State) : State := { s.record (.aesResp r) with engine := none }

@[simp] theorem afterAnswer_ibuf (r : Bytes 16) (s : State) : (afterAnswer r s).ibuf = s.ibuf := rfl
@[simp] theorem afterAnswer_ilen (r : Bytes 16) (s : State) : (afterAnswer r s).ilen = s.ilen := rfl
@[simp] theorem afterAnswer_masterKey (r : Bytes 16) (s : State) : (afterAnswer r s).masterKey = s.masterKey := rfl
@[simp] theorem afterAnswer_k1 (r : Bytes 16) (s : State) : (afterAnswer r s).k1 = s.k1 := rfl
@[simp] theorem afterAnswer_nonce (r : Bytes 16) (s : State) : (afterAnswer r s).nonce = s.nonce := rfl
@[simp] theorem afterAnswer_dk (r : Bytes 16) (s : State) : (afterAnswer r s).dk = s.dk := rfl
@[simp] theorem afterAnswer_kv (r : Bytes 16) (s : State) : (afterAnswer r s).kv = s.kv := rfl
@[simp] theorem afterAnswer_dkv (r : Bytes 16) (s : State) : (afterAnswer r s).dkv = s.dkv := rfl
@[simp] theorem afterAnswer_ovr (r : Bytes 16) (s : State) : (afterAnswer r s).ovr = s.ovr := rfl
@[simp] theorem afterAnswer_err (r : Bytes 16) (s : State) : (afterAnswer r s).err = s.err := rfl
@[simp] theorem afterAnswer_fcause (r : Bytes 16) (s : State) : (afterAnswer r s).fcause = s.fcause := rfl
@[simp] theorem afterAnswer_ph (r : Bytes 16) (s : State) : (afterAnswer r s).ph = s.ph := rfl
@[simp] theorem afterAnswer_engine (r : Bytes 16) (s : State) : (afterAnswer r s).engine = none := rfl
@[simp] theorem afterAnswer_agenda (r : Bytes 16) (s : State) : (afterAnswer r s).agenda = s.agenda := rfl
@[simp] theorem afterAnswer_trace (r : Bytes 16) (s : State) : (afterAnswer r s).trace = .aesResp r :: s.trace := rfl

/-- Everything the arrival of an answer can do. -/
theorem answerArrives_cases (r : Bytes 16) (s : State) :
    (s.ph = .initWait ∧ answerArrives r s = seqInitResp r (afterAnswer r s)) ∨
    (s.ph = .drv1Wait ∧ answerArrives r s = seqDrv1Resp r (afterAnswer r s)) ∨
    (s.ph = .drv2Wait ∧ answerArrives r s = seqDrv2Resp r (afterAnswer r s)) ∨
    (s.ph ≠ .initWait ∧ s.ph ≠ .drv1Wait ∧ s.ph ≠ .drv2Wait ∧ answerArrives r s = afterAnswer r s) :=
  takeAnswer_cases r (afterAnswer r s)

/-- Everything the engine keeping its contract can do. -/
theorem engineAnswers_cases (s : State) :
    (s.engine = none ∧ engineAnswers s = s) ∨
    ∃ q, s.engine = some q ∧ engineAnswers s = answerArrives (Config.AESENC q.key q.block) s := by
  cases he : s.engine with
  | none => exact .inl ⟨rfl, by simp [engineAnswers, he]⟩
  | some q => exact .inr ⟨q, rfl, by simp [engineAnswers, he]⟩

/-- Everything a ready consumer can do. -/
theorem consumerReady_cases (s : State) :
    (s.dkv = true ∧ consumerReady s =
      { s.record (.deliver s.dk (nonceN2 s.nonce)) with
        dk := zeros 32, nonce := zeros 24, dkv := false }) ∨
    (s.dkv = false ∧ consumerReady s = s) := by
  cases hd : s.dkv <;> simp [consumerReady, hd]

/-- The second half of DK is what it was when the first half is written. -/
theorem slice_withLowHalf (dk : Bytes 32) (r : Bytes 16) :
    slice (withLowHalf dk r) 16 16 = slice dk 16 16 := by
  apply Vector.ext
  intro i hi
  simp [withLowHalf]

end Sys2Proof.Machine
end

