-- ==== Sys2Proof/Laws/Step.lean ====
section
/-! SUPPORT. What a step can do, said once (`step_cases`): the event at the head of the agenda is taken,
and `Effect` lists every state each event can lead to, with the conditions of each case. -/

namespace Sys2Proof.Machine

/-- Everything the event `e` can do to the state `s` (the agenda already without `e`). -/
inductive Effect (s : State) : Event → State → Prop where
  | otherSlot {w : Slot} {v : Word} (h2 : w ≠ 2) (h3 : w ≠ 3) :
      Effect s (.hostWrite w v) (s.record (.hostWrite w v))
  | ignored {w : Slot} {v : Word} (hw : w = 2 ∨ w = 3) (hp : s.ph = .fault) :
      Effect s (.hostWrite w v) (s.record (.hostWrite w v))
  | dropped {w : Slot} {v : Word} (hw : w = 2 ∨ w = 3) (hb : s.ph.busy = true) :
      Effect s (.hostWrite w v) { s.record (.hostWrite w v) with ovr := true }
  | pushed {v : Word} (hp : s.ph = .idle) :
      Effect s (.hostWrite 3 v) (pushExamined (v.extractLsb' 0 8) (s.record (.hostWrite 3 v)))
  | keyPending (hp : s.ph = .idle) (hd : s.dkv = true) :
      Effect s (.hostWrite 2 1) ((s.record (.hostWrite 2 1)).consume.raiseError 5)
  | keyLength (hp : s.ph = .idle) (hd : s.dkv = false) (hl : s.ilen ≠ 32) :
      Effect s (.hostWrite 2 1) ((s.record (.hostWrite 2 1)).consume.raiseError 1)
  | keyStarted (hp : s.ph = .idle) (hd : s.dkv = false) (hl : s.ilen = 32) :
      Effect s (.hostWrite 2 1)
        { (s.record (.hostWrite 2 1)).consume with
          masterKey := s.ibuf, k1 := zeros 16, kv := false, err := 0, ph := .initReq }
  | derivePending {v : Word} (hv : v = 2 ∨ v = 3) (hp : s.ph = .idle) (hd : s.dkv = true) :
      Effect s (.hostWrite 2 v) ((s.record (.hostWrite 2 v)).consume.raiseError 5)
  | deriveNoKey {v : Word} (hv : v = 2 ∨ v = 3) (hp : s.ph = .idle) (hd : s.dkv = false)
      (hk : s.kv = false) :
      Effect s (.hostWrite 2 v) ((s.record (.hostWrite 2 v)).consume.raiseError 4)
  | sealTrapped (hp : s.ph = .idle) (hd : s.dkv = false) (hk : s.kv = true) (hl : s.ilen ≠ 24) :
      Effect s (.hostWrite 2 2) ((s.record (.hostWrite 2 2)).raiseTrap 1)
  | openLength (hp : s.ph = .idle) (hd : s.dkv = false) (hk : s.kv = true) (hl : s.ilen ≠ 24) :
      Effect s (.hostWrite 2 3) ((s.record (.hostWrite 2 3)).consume.raiseError 2)
  | deriveStarted {v : Word} (hv : v = 2 ∨ v = 3) (hp : s.ph = .idle) (hd : s.dkv = false)
      (hk : s.kv = true) (hl : s.ilen = 24) :
      Effect s (.hostWrite 2 v)
        { (s.record (.hostWrite 2 v)).consume with nonce := slice s.ibuf 0 24, err := 0, ph := .drv1Req }
  | flushed (hp : s.ph = .idle) :
      Effect s (.hostWrite 2 4) (s.record (.hostWrite 2 4)).consume.dropCall
  | zeroized (hp : s.ph = .idle) :
      Effect s (.hostWrite 2 5)
        { (s.record (.hostWrite 2 5)).consume.dropCall with
          masterKey := zeros 32, k1 := zeros 16, kv := false }
  | illegal {v : Word} (hv : v ≠ 1 ∧ v ≠ 2 ∧ v ≠ 3 ∧ v ≠ 4 ∧ v ≠ 5) (hp : s.ph = .idle) :
      Effect s (.hostWrite 2 v) ((s.record (.hostWrite 2 v)).raiseError 3)
  | read {w : Slot} : Effect s (.hostRead w) (s.record (.hostRead w (memRead w s)))
  | initReq (hp : s.ph = .initReq) : Effect s .aesAccept (acceptRequest zeroBlock .initWait s)
  | drv1Req (hp : s.ph = .drv1Req) :
      Effect s .aesAccept (acceptRequest (requestX .first s) .drv1Wait s)
  | drv2Req (hp : s.ph = .drv2Req) :
      Effect s .aesAccept (acceptRequest (requestX .second s) .drv2Wait s)
  | noRequest (h1 : s.ph ≠ .initReq) (h2 : s.ph ≠ .drv1Req) (h3 : s.ph ≠ .drv2Req) :
      Effect s .aesAccept s
  | initResp {r : Bytes 16} (hp : s.ph = .initWait) :
      Effect s (.aesResp r) (seqInitResp r (afterAnswer r s))
  | drv1Resp {r : Bytes 16} (hp : s.ph = .drv1Wait) :
      Effect s (.aesResp r) (seqDrv1Resp r (afterAnswer r s))
  | drv2Resp {r : Bytes 16} (hp : s.ph = .drv2Wait) :
      Effect s (.aesResp r) (seqDrv2Resp r (afterAnswer r s))
  | unawaited {r : Bytes 16} (h1 : s.ph ≠ .initWait) (h2 : s.ph ≠ .drv1Wait) (h3 : s.ph ≠ .drv2Wait) :
      Effect s (.aesResp r) (afterAnswer r s)
  | noRequestHeld (he : s.engine = none) : Effect s .aesAnswer s
  | initAnswer {q : AesRequest} (he : s.engine = some q) (hp : s.ph = .initWait) :
      Effect s .aesAnswer
        (seqInitResp (Config.AESENC q.key q.block) (afterAnswer (Config.AESENC q.key q.block) s))
  | drv1Answer {q : AesRequest} (he : s.engine = some q) (hp : s.ph = .drv1Wait) :
      Effect s .aesAnswer
        (seqDrv1Resp (Config.AESENC q.key q.block) (afterAnswer (Config.AESENC q.key q.block) s))
  | drv2Answer {q : AesRequest} (he : s.engine = some q) (hp : s.ph = .drv2Wait) :
      Effect s .aesAnswer
        (seqDrv2Resp (Config.AESENC q.key q.block) (afterAnswer (Config.AESENC q.key q.block) s))
  | unawaitedAnswer {q : AesRequest} (he : s.engine = some q) (h1 : s.ph ≠ .initWait)
      (h2 : s.ph ≠ .drv1Wait) (h3 : s.ph ≠ .drv2Wait) :
      Effect s .aesAnswer (afterAnswer (Config.AESENC q.key q.block) s)
  | delivered (hd : s.dkv = true) :
      Effect s .take
        { s.record (.deliver s.dk (nonceN2 s.nonce)) with
          dk := zeros 32, nonce := zeros 24, dkv := false }
  | notOffered (hd : s.dkv = false) : Effect s .take s
  | reset : Effect s .reset (s.applyReset.record .reset)

theorem resp_effect (s : State) (r : Bytes 16) : Effect s (.aesResp r) (answerArrives r s) := by
  rcases answerArrives_cases r s with ⟨hp, g⟩ | ⟨hp, g⟩ | ⟨hp, g⟩ | ⟨h1, h2, h3, g⟩ <;> rw [g]
  · exact .initResp hp
  · exact .drv1Resp hp
  · exact .drv2Resp hp
  · exact .unawaited h1 h2 h3

theorem answer_effect (s : State) : Effect s .aesAnswer (engineAnswers s) := by
  rcases engineAnswers_cases s with ⟨he, g⟩ | ⟨q, he, g⟩ <;> rw [g]
  · exact .noRequestHeld he
  · rcases answerArrives_cases (Config.AESENC q.key q.block) s with
      ⟨hp, g⟩ | ⟨hp, g⟩ | ⟨hp, g⟩ | ⟨h1, h2, h3, g⟩ <;> rw [g]
    · exact .initAnswer he hp
    · exact .drv1Answer he hp
    · exact .drv2Answer he hp
    · exact .unawaitedAnswer he h1 h2 h3

/-- A CMD write or DIN write passes the gate: the two outcomes outside IDLE, and the examined one. -/
theorem gated_effect {s : State} {w : Slot} {v : Word} {f : State → State} (hw : w = 2 ∨ w = 3)
    (hf : s.ph = .idle → Effect s (.hostWrite w v) (f (s.record (.hostWrite w v)))) :
    Effect s (.hostWrite w v) (hostGate f (s.record (.hostWrite w v))) := by
  rcases hostGate_cases f (s.record (.hostWrite w v)) with ⟨hp, g⟩ | ⟨hp, g⟩ | ⟨hp, g⟩ <;> rw [g]
  · exact hf hp
  · exact .ignored hw hp
  · exact .dropped hw hp

theorem loadkey_effect {s : State} (hp : s.ph = .idle) :
    Effect s (.hostWrite 2 1) (loadkeyExamined (s.record (.hostWrite 2 1))) := by
  rcases loadkeyExamined_cases (s.record (.hostWrite 2 1)) with ⟨hd, g⟩ | ⟨hd, hl, g⟩ | ⟨hd, hl, g⟩ <;>
    rw [g]
  · exact .keyPending hp hd
  · exact .keyLength hp hd hl
  · exact .keyStarted hp hd hl

theorem derive_effect {s : State} {v : Word} {f : State → State} (hv : v = 2 ∨ v = 3) (hp : s.ph = .idle)
    (hf : s.dkv = false → s.kv = true → s.ilen ≠ 24 →
      Effect s (.hostWrite 2 v) (f (s.record (.hostWrite 2 v)))) :
    Effect s (.hostWrite 2 v) (deriveExamined f (s.record (.hostWrite 2 v))) := by
  rcases deriveExamined_cases f (s.record (.hostWrite 2 v)) with
    ⟨hd, g⟩ | ⟨hd, hk, g⟩ | ⟨hd, hk, hl, g⟩ | ⟨hd, hk, hl, g⟩ <;> rw [g]
  · exact .derivePending hv hp hd
  · exact .deriveNoKey hv hp hd hk
  · exact hf hd hk hl
  · exact .deriveStarted hv hp hd hk hl

/-- Every event completes, with one of its effects. -/
theorem runEvent_effect (e : Event) (s : State) : ∃ t, runEvent e s = .next t ∧ Effect s e t := by
  cases e with
  | hostWrite w v =>
    by_cases h2 : w = 2
    · subst h2
      rcases memWrite_cmd_cases v with ⟨rfl, h⟩ | ⟨rfl, h⟩ | ⟨rfl, h⟩ | ⟨rfl, h⟩ | ⟨rfl, h⟩ | ⟨hv, h⟩
      · exact ⟨_, h _, gated_effect (.inl rfl) loadkey_effect⟩
      · exact ⟨_, h _, gated_effect (.inl rfl) fun hp => derive_effect (.inl rfl) hp (.sealTrapped hp)⟩
      · exact ⟨_, h _, gated_effect (.inl rfl) fun hp => derive_effect (.inr rfl) hp (.openLength hp)⟩
      · exact ⟨_, h _, gated_effect (.inl rfl) .flushed⟩
      · exact ⟨_, h _, gated_effect (.inl rfl) .zeroized⟩
      · exact ⟨_, h _, gated_effect (.inl rfl) (.illegal (by
          refine ⟨?_, ?_, ?_, ?_, ?_⟩ <;> rintro rfl <;> simp at hv))⟩
    · by_cases h3 : w = 3
      · subst h3
        exact ⟨_, rfl, gated_effect (.inr rfl) .pushed⟩
      · exact ⟨_, memWrite_otherSlot h2 h3 v _, .otherSlot h2 h3⟩
  | hostRead w => exact ⟨_, rfl, .read⟩
  | aesAccept =>
    refine ⟨_, rfl, ?_⟩
    rcases engineReady_cases s with ⟨hp, g⟩ | ⟨hp, g⟩ | ⟨hp, g⟩ | ⟨h1, h2, h3, g⟩ <;> rw [g]
    · exact .initReq hp
    · exact .drv1Req hp
    · exact .drv2Req hp
    · exact .noRequest h1 h2 h3
  | aesAnswer => exact ⟨_, rfl, answer_effect s⟩
  | aesResp r => exact ⟨_, rfl, resp_effect s r⟩
  | take =>
    refine ⟨_, rfl, ?_⟩
    rcases consumerReady_cases s with ⟨hd, g⟩ | ⟨hd, g⟩ <;> rw [g]
    · exact .delivered hd
    · exact .notOffered hd
  | reset => exact ⟨_, rfl, .reset⟩

theorem step_cons {s : State} {e : Event} {rest : List Event} (h : s.agenda = e :: rest) :
    step s = runEvent e (s.withAgenda rest) := by
  simp [step, h, State.withAgenda]

theorem step_nil {s : State} (h : s.agenda = []) : step s = runNothing s := by
  simp [step, h]

/-- A step with an event scheduled completes, with one of the event's effects. -/
theorem step_effect {s : State} {e : Event} {rest : List Event} (h : s.agenda = e :: rest) :
    ∃ t, step s = .next t ∧ Effect (s.withAgenda rest) e t := by
  rw [step_cons h]
  exact runEvent_effect e _

/-- Everything a step can do. -/
theorem step_cases {s t : State} (h : step s = .next t) :
    (s.agenda = [] ∧ s.ph ≠ .fault ∧ t = s) ∨
    ∃ e rest, s.agenda = e :: rest ∧ Effect (s.withAgenda rest) e t := by
  cases ha : s.agenda with
  | nil => by_cases hp : s.ph = .fault <;> simp_all [step_nil ha, runNothing]
  | cons e rest =>
    obtain ⟨u, hu, he⟩ := step_effect ha
    rw [hu, Host.Outcome.next.injEq] at h
    exact .inr ⟨e, rest, rfl, h ▸ he⟩

/-- A run takes the scheduled events one by one. -/
theorem run_succ {s t : State} (h : step s = .next t) (k : Nat) :
    Host.Core.run Sys2Proof.core (k + 1) s = Host.Core.run Sys2Proof.core k t := by
  have : Sys2Proof.core.step s = .next t := h
  simp [Host.Core.run, this]

/-- A run over a first and then a second number of steps. -/
theorem run_add {s t : State} {m : Nat} (h : Host.Core.run Sys2Proof.core m s = .next t) (k : Nat) :
    Host.Core.run Sys2Proof.core (m + k) s = Host.Core.run Sys2Proof.core k t := by
  induction m generalizing s with
  | zero => cases h; rw [Nat.zero_add]
  | succ m ih =>
    rw [Nat.succ_add]
    simp only [Host.Core.run] at h ⊢
    cases hs : Sys2Proof.core.step s with
    | next u => rw [hs] at h; exact ih h
    | fault r => rw [hs] at h; cases h
    | refused r => rw [hs] at h; cases h

/-- An event leaves the rest of the agenda as it is. -/
theorem Effect.agenda_eq {s t : State} {e : Event} (h : Effect s e t) : t.agenda = s.agenda := by
  cases h <;> rfl

/-- A step takes one event from the agenda. -/
theorem step_agenda {s t : State} (h : step s = .next t) : t.agenda = s.agenda.tail := by
  rcases step_cases h with ⟨ha, -, rfl⟩ | ⟨e, rest, ha, he⟩
  · rw [ha, List.tail_nil]
  · rw [he.agenda_eq, ha]
    rfl

end Sys2Proof.Machine
end

