-- ==== Sys2Proof/Laws/Reach.lean ====
section
/-! SUPPORT. Where runs lead: the states a run reaches from a reachable state. -/

namespace Sys2Proof.Machine

/-- While only the engine's own answers are scheduled, the engine keeps its contract. -/
theorem keepsContract_of_no_raw {s : State} (h : ∀ r, .aesResp r ∉ s.agenda) : KeepsContract s := by
  intro r rest ha
  exact absurd (ha ▸ List.mem_cons_self) (h r)

/-- A run keeps to states reachable under the contract while only the engine's own answers are scheduled. -/
theorem ContractReachable.run {n : Nat} {s t : State} (hs : ContractReachable s)
    (h : ∀ r, .aesResp r ∉ s.agenda) (hr : Host.Core.run Sys2Proof.core n s = .next t) : ContractReachable t := by
  induction n generalizing s with
  | zero => cases hr; exact hs
  | succ n ih =>
    simp only [Host.Core.run] at hr
    cases hu : Sys2Proof.core.step s with
    | next u =>
      rw [hu] at hr
      refine ih (ReachableBy.step hs (keepsContract_of_no_raw h) hu) (fun r hm => h r ?_) hr
      rw [step_agenda hu] at hm
      exact List.mem_of_mem_tail hm
    | fault r => rw [hu] at hr; cases hr
    | refused r => rw [hu] at hr; cases hr

/-- Under the contract or not, a reachable state is reachable. -/
theorem ContractReachable.reachable {s : State} (h : ContractReachable s) : Reachable s := by
  induction h with
  | start es => exact .start es
  | step _ _ hm ih => exact .step ih trivial hm

end Sys2Proof.Machine
end

