-- ==== Sys2Proof/Tests/Slice0.lean ====
section
/-! SUPPORT. The model's own tests: words and results taken from the spec's tables, examples and vectors
(30_encoding.md, 41_host_commands.md, 42_sequencer_steps.md, 95_test_vectors.md), the ill-formed lines
WellFormed refuses, and for each statement with hypotheses a state and operands that meet them. -/

namespace Sys2Proof.Tests

open Sys2Proof.Machine

/-! ## Helpers -/

/-- A state with nothing running, whose length and flags are given. -/
def idleWith (kv dkv : Bool) (ilen : BitVec 6) (es : List Event) : State :=
  { State.reset with kv := kv, dkv := dkv, ilen := ilen, agenda := es }

/-- A state in the given phase. -/
def inPhase (p : Phase) (es : List Event) : State := { State.reset with ph := p, agenda := es }

/-- STATUS after the next step, if the step completes. -/
def statusAfter (s : State) : Option Word :=
  match step s with
  | .next t => some (statusWord t)
  | .fault _ | .refused _ => none

/-- ILEN and IBUF after the next step, if the step completes. -/
def bufferAfter (s : State) : Option (BitVec 6 × Bytes 32) :=
  match step s with
  | .next t => some (t.ilen, t.ibuf)
  | .fault _ | .refused _ => none

/-- The latest port event after the next step, if the step completes. -/
def lastEvent (s : State) : Option PortEvent :=
  match step s with
  | .next t => t.trace.head?
  | .fault _ | .refused _ => none

/-! ## Decoding: the words of 30_encoding.md R82 and R84, written out -/

theorem test_decode_loadkey : decode 2 0b00000000000000000000000000000001 = .ok .loadkey := by decide
theorem test_decode_derive_seal : decode 2 0b00000000000000000000000000000010 = .ok .deriveSeal := by decide
theorem test_decode_derive_open : decode 2 0b00000000000000000000000000000011 = .ok .deriveOpen := by decide
theorem test_decode_flush : decode 2 0b00000000000000000000000000000100 = .ok .flush := by decide
theorem test_decode_zeroize : decode 2 0b00000000000000000000000000000101 = .ok .zeroize := by decide
/-- T34: the upper 24 bits of a DIN word are ignored. -/
theorem test_decode_push :
    decode 3 0xFFFFFF41 = .ok (.push 0x41) ∧ decode 3 0x000001AB = .ok (.push 0xAB) := by decide
/-- R85 and the worked examples of R128: code 0, code 6, a reserved bit over a legal code, the top bit. -/
theorem test_decode_illegal :
    decode 2 0x00000000 = .error .illegalCommand ∧ decode 2 0x00000006 = .error .illegalCommand ∧
    decode 2 0x00000102 = .error .illegalCommand ∧ decode 2 0x80000001 = .error .illegalCommand ∧
    decode 2 0x000000FF = .error .illegalCommand := by decide
/-- R53: no other slot has a format. -/
theorem test_decode_other_slots :
    ∀ w : Slot, w ≠ 2 → w ≠ 3 → decode w 0x00000001 = .error .noFormat := by decide
/-- R86: no two rows of the opcode table accept one word in one slot. -/
theorem test_table_rows_disjoint :
    [Instr.loadkey, .deriveSeal, .deriveOpen, .flush, .zeroize, .push 0].Pairwise fun i j =>
      i.row.slot ≠ j.row.slot ∨
        i.row.pattern &&& (i.row.mask &&& j.row.mask) ≠ j.row.pattern &&& (i.row.mask &&& j.row.mask) := by
  decide
theorem test_decode_table_word :
    decodeTableWord 32 1 = some .loadkey ∧ decodeTableWord 32 5 = some .zeroize ∧
    decodeTableWord 32 0 = some (.push 0) ∧ decodeTableWord 32 (2 ^ 32) = none := by decide

/-! ## WellFormed: an ill-formed line for each check, refused -/

theorem test_refuses_wrong_size : (HostLine.memWrite 8 2 1).wellFormed = false := by decide
theorem test_refuses_wrong_size_read : (HostLine.memRead 4 8).wellFormed = false := by decide
theorem test_refuses_misaligned : (HostLine.memWrite 2 4 1).wellFormed = false := by decide
theorem test_refuses_misaligned_read : (HostLine.memRead 13 4).wellFormed = false := by decide
theorem test_refuses_outside_window : (HostLine.memWrite 32 4 1).wellFormed = false := by decide
theorem test_refuses_outside_window_read : (HostLine.memRead 32 4).wellFormed = false := by decide
theorem test_accepts_first_and_last_slot :
    (HostLine.memRead 0 4).wellFormed = true ∧ (HostLine.memWrite 28 4 1).wellFormed = true := by decide
theorem test_program_with_ill_formed_line_has_no_events :
    programEvents [.wrOp .flush, .memRead 2 4] = none := by decide

/-! ## Pure functions: 95_test_vectors.md section 2 and vectors A1, A2 -/

/-- T2: the top bit is dropped, 0x87 into byte 15. -/
theorem test_dbl_T2 :
    dbl #v[0x80, 0x00, 0x00, 0x00, 0x00, 0x00, 0x00, 0x00, 0x00, 0x00, 0x00, 0x00, 0x00, 0x00, 0x00, 0x00] =
      #v[0x00, 0x00, 0x00, 0x00, 0x00, 0x00, 0x00, 0x00, 0x00, 0x00, 0x00, 0x00, 0x00, 0x00, 0x00, 0x87] := by
  unfold dbl; decide
/-- T6: a carry from byte 1 into byte 0. -/
theorem test_dbl_T6 :
    dbl #v[0x00, 0x80, 0x00, 0x00, 0x00, 0x00, 0x00, 0x00, 0x00, 0x00, 0x00, 0x00, 0x00, 0x00, 0x00, 0x00] =
      #v[0x01, 0x00, 0x00, 0x00, 0x00, 0x00, 0x00, 0x00, 0x00, 0x00, 0x00, 0x00, 0x00, 0x00, 0x00, 0x00] := by
  unfold dbl; decide
/-- T9: 0x86 xor 0x87. -/
theorem test_dbl_T9 :
    dbl #v[0xc0, 0x00, 0x00, 0x00, 0x00, 0x00, 0x00, 0x00, 0x00, 0x00, 0x00, 0x00, 0x00, 0x00, 0x00, 0x43] =
      #v[0x80, 0x00, 0x00, 0x00, 0x00, 0x00, 0x00, 0x00, 0x00, 0x00, 0x00, 0x00, 0x00, 0x00, 0x00, 0x01] := by
  unfold dbl; decide
/-- A1: top bit clear. -/
theorem test_dbl_A1 :
    dbl #v[0x72, 0x98, 0xca, 0xa5, 0x65, 0x03, 0x1e, 0xad, 0xc6, 0xce, 0x23, 0xd2, 0x3e, 0xa6, 0x63, 0x78] =
      #v[0xe5, 0x31, 0x95, 0x4a, 0xca, 0x06, 0x3d, 0x5b, 0x8d, 0x9c, 0x47, 0xa4, 0x7d, 0x4c, 0xc6, 0xf0] := by
  unfold dbl; decide
/-- A2: top bit set. -/
theorem test_dbl_A2 :
    dbl #v[0x91, 0xc0, 0x87, 0x62, 0x87, 0x6d, 0xcc, 0xf9, 0xba, 0x20, 0x4a, 0x33, 0x76, 0x8f, 0xa5, 0xfe] =
      #v[0x23, 0x81, 0x0e, 0xc5, 0x0e, 0xdb, 0x99, 0xf3, 0x74, 0x40, 0x94, 0x66, 0xed, 0x1f, 0x4b, 0x7b] := by
  unfold dbl; decide
/-- T20. -/
theorem test_xor16_T20 :
    xor16 #v[0x00, 0x01, 0x58, 0x00, 0x41, 0x42, 0x43, 0x44, 0x45, 0x46, 0x47, 0x48, 0x49, 0x4a, 0x4b, 0x4c]
      #v[0xe5, 0x31, 0x95, 0x4a, 0xca, 0x06, 0x3d, 0x5b, 0x8d, 0x9c, 0x47, 0xa4, 0x7d, 0x4c, 0xc6, 0xf0] =
      #v[0xe5, 0x30, 0xcd, 0x4a, 0x8b, 0x44, 0x7e, 0x1f, 0xc8, 0xda, 0x00, 0xec, 0x34, 0x06, 0x8d, 0xbc] := by decide
/-- T22, T23. -/
theorem test_block_T22_T23 :
    kdfBlock .first #v[0x41, 0x42, 0x43, 0x44, 0x45, 0x46, 0x47, 0x48, 0x49, 0x4a, 0x4b, 0x4c] =
      #v[0x00, 0x01, 0x58, 0x00, 0x41, 0x42, 0x43, 0x44, 0x45, 0x46, 0x47, 0x48, 0x49, 0x4a, 0x4b, 0x4c] ∧
    kdfBlock .second #v[0x41, 0x42, 0x43, 0x44, 0x45, 0x46, 0x47, 0x48, 0x49, 0x4a, 0x4b, 0x4c] =
      #v[0x00, 0x02, 0x58, 0x00, 0x41, 0x42, 0x43, 0x44, 0x45, 0x46, 0x47, 0x48, 0x49, 0x4a, 0x4b, 0x4c] := by decide
/-- T27, T28. -/
theorem test_X_T27_T28 :
    kdfInput .first #v[0x01, 0x03, 0x05, 0x07, 0x09, 0x0b, 0x0d, 0x0f, 0x11, 0x13, 0x15, 0x17, 0x19, 0x1b, 0x1d, 0x99]
        #v[0x41, 0x42, 0x43, 0x44, 0x45, 0x46, 0x47, 0x48, 0x49, 0x4a, 0x4b, 0x4c] =
      #v[0x01, 0x02, 0x5d, 0x07, 0x48, 0x49, 0x4e, 0x4b, 0x54, 0x55, 0x52, 0x5f, 0x50, 0x51, 0x56, 0xd5] ∧
    kdfInput .second #v[0x01, 0x03, 0x05, 0x07, 0x09, 0x0b, 0x0d, 0x0f, 0x11, 0x13, 0x15, 0x17, 0x19, 0x1b, 0x1d, 0x99]
        #v[0x41, 0x42, 0x43, 0x44, 0x45, 0x46, 0x47, 0x48, 0x49, 0x4a, 0x4b, 0x4c] =
      #v[0x01, 0x01, 0x5d, 0x07, 0x48, 0x49, 0x4e, 0x4b, 0x54, 0x55, 0x52, 0x5f, 0x50, 0x51, 0x56, 0xd5] := by decide
/-- R9: byte 0 in the most significant bits. -/
theorem test_bus_packing : bus (n := 4) #v[0x58, 0x4B, 0x44, 0x01] = 0x584B4401 := by decide

/-! ## One step each: results from the worked examples and vectors named -/

/-- R120: from reset, `WR DIN, #000001AB` gives `IBUF[0] = 0xAB`, ILEN = 1. -/
theorem test_push_stores_first_byte :
    bufferAfter (idleWith false false 0 [.hostWrite 3 0x000001AB]) = some (1, (zeros 32).set 0 0xAB) := by decide
/-- T32, T33: the 33rd byte is counted and not stored; 63 stays 63. -/
theorem test_push_counts_past_the_buffer :
    bufferAfter (idleWith false false 32 [.hostWrite 3 0x20]) = some (33, zeros 32) ∧
    bufferAfter (idleWith false false 63 [.hostWrite 3 0x45]) = some (63, zeros 32) := by decide
/-- R123: STATUS = 0x00010001 after an accepted LOADKEY; T32, T30: 33 or 0 bytes give ERR 1. -/
theorem test_loadkey :
    statusAfter (idleWith false false 32 [.hostWrite 2 1]) = some 0x00010001 ∧
    statusAfter (idleWith false false 33 [.hostWrite 2 1]) = some 0x00000100 ∧
    statusAfter (idleWith false false 0 [.hostWrite 2 1]) = some 0x00000100 := by decide
/-- Q3, Q12: an output pending gives ERR 5; an accepted LOADKEY ends the old key. -/
theorem test_loadkey_with_a_key :
    statusAfter (idleWith true true 32 [.hostWrite 2 1]) = some 0x00000506 ∧
    statusAfter (idleWith true false 32 [.hostWrite 2 1]) = some 0x00010001 := by decide
/-- R124: STATUS = 0x00030003; P3: 25 bytes trap, STATUS = 0x00071008. -/
theorem test_derive_seal :
    statusAfter (idleWith true false 24 [.hostWrite 2 2]) = some 0x00030003 ∧
    statusAfter (idleWith true false 25 [.hostWrite 2 2]) = some 0x00071008 := by decide
/-- Q1, Q2: no key and a pending output are tested before the length. -/
theorem test_derive_seal_errors :
    statusAfter (idleWith false false 5 [.hostWrite 2 2]) = some 0x00000400 ∧
    statusAfter (idleWith true true 23 [.hostWrite 2 2]) = some 0x00000506 := by decide
/-- R125: 23 pushes give STATUS = 0x00000202; P2 line 10: 24 give 0x00030003. -/
theorem test_derive_open :
    statusAfter (idleWith true false 23 [.hostWrite 2 3]) = some 0x00000202 ∧
    statusAfter (idleWith true false 24 [.hostWrite 2 3]) = some 0x00030003 := by decide
/-- R126: STATUS goes from 0x00000006 to 0x00000002; P4 line 4: dropped while busy. -/
theorem test_flush :
    statusAfter (idleWith true true 3 [.hostWrite 2 4]) = some 0x00000002 ∧
    statusAfter (inPhase .initReq [.hostWrite 2 4]) = some 0x00010011 := by decide
/-- R127: STATUS goes from 0x00000006 to 0x00000000. -/
theorem test_zeroize : statusAfter (idleWith true true 3 [.hostWrite 2 5]) = some 0 := by decide
/-- R128: STATUS = 0x00000300, and IBUF and ILEN are kept. -/
theorem test_illegal_command :
    statusAfter (idleWith false false 3 [.hostWrite 2 0]) = some 0x00000300 ∧
    bufferAfter (idleWith false false 3 [.hostWrite 2 0x102]) = some (3, zeros 32) := by decide
/-- R151: STATUS goes from 0x00010001 to 0x00020001. -/
theorem test_init_req : statusAfter (inPhase .initReq [.aesAccept]) = some 0x00020001 := by decide
/-- R152: K1 of the worked example. -/
theorem test_init_resp :
    (seqInitResp #v[0xf2, 0x90, 0x00, 0xb6, 0x2a, 0x49, 0x9f, 0xd0, 0xa9, 0xf3, 0x9a, 0x6a, 0xdd, 0x2e, 0x77, 0x80]
        (inPhase .initWait [])).k1 =
      #v[0xe5, 0x20, 0x01, 0x6c, 0x54, 0x93, 0x3f, 0xa1, 0x53, 0xe7, 0x34, 0xd5, 0xba, 0x5c, 0xef, 0x87] := by
  show dbl _ = _
  unfold dbl; decide
/-- R153, R155: the blocks sent of the worked examples. -/
theorem test_derivation_requests :
    requestX .first
        { State.reset with
          k1 := #v[0xe5, 0x31, 0x95, 0x4a, 0xca, 0x06, 0x3d, 0x5b, 0x8d, 0x9c, 0x47, 0xa4, 0x7d, 0x4c, 0xc6, 0xf0]
          nonce := joinBytes #v[0x41, 0x42, 0x43, 0x44, 0x45, 0x46, 0x47, 0x48, 0x49, 0x4a, 0x4b, 0x4c] (zeros 12) } =
      #v[0xe5, 0x30, 0xcd, 0x4a, 0x8b, 0x44, 0x7e, 0x1f, 0xc8, 0xda, 0x00, 0xec, 0x34, 0x06, 0x8d, 0xbc] ∧
    requestX .second
        { State.reset with
          k1 := #v[0xe5, 0x31, 0x95, 0x4a, 0xca, 0x06, 0x3d, 0x5b, 0x8d, 0x9c, 0x47, 0xa4, 0x7d, 0x4c, 0xc6, 0xf0]
          nonce := joinBytes #v[0x41, 0x42, 0x43, 0x44, 0x45, 0x46, 0x47, 0x48, 0x49, 0x4a, 0x4b, 0x4c] (zeros 12) } =
      #v[0xe5, 0x33, 0xcd, 0x4a, 0x8b, 0x44, 0x7e, 0x1f, 0xc8, 0xda, 0x00, 0xec, 0x34, 0x06, 0x8d, 0xbc] := by decide
/-- P1 line 13: what the consumer takes. -/
theorem test_deliver :
    lastEvent
        { idleWith true true 0 [.take] with
          dk := #v[0x9b, 0x61, 0xb8, 0x47, 0x57, 0x67, 0x73, 0x87, 0x97, 0x9f, 0xab, 0xb7, 0xd7, 0xd7, 0xf3, 0xdb, 0x98, 0x61, 0xb8, 0x47, 0x57, 0x67, 0x73, 0x87, 0x97, 0x9f, 0xab, 0xb7, 0xd7, 0xd7, 0xf3, 0xdb]
          nonce := #v[0x80, 0x81, 0x82, 0x83, 0x84, 0x85, 0x86, 0x87, 0x88, 0x89, 0x8a, 0x8b, 0x8c, 0x8d, 0x8e, 0x8f, 0x90, 0x91, 0x92, 0x93, 0x94, 0x95, 0x96, 0x97] } =
      some (.deliver #v[0x9b, 0x61, 0xb8, 0x47, 0x57, 0x67, 0x73, 0x87, 0x97, 0x9f, 0xab, 0xb7, 0xd7, 0xd7, 0xf3, 0xdb, 0x98, 0x61, 0xb8, 0x47, 0x57, 0x67, 0x73, 0x87, 0x97, 0x9f, 0xab, 0xb7, 0xd7, 0xd7, 0xf3, 0xdb]
        #v[0x8c, 0x8d, 0x8e, 0x8f, 0x90, 0x91, 0x92, 0x93, 0x94, 0x95, 0x96, 0x97]) := by decide
/-- Q10: the reads of w0 to w7 with a key loaded. -/
theorem test_reads :
    (List.range 8).map (fun w => memRead (BitVec.ofNat 3 w) (idleWith true false 0 [])) =
      [0x584B4401, 0x00000002, 0, 0, 0, 0, 0, 0] := by decide
/-- Q11: writes of w0, w1, w4 and w7 change nothing. -/
theorem test_ignored_writes :
    ∀ w : Slot, w ≠ 2 → w ≠ 3 → statusAfter (idleWith true false 0 [.hostWrite w 5]) = some 0x00000002 := by
  decide
/-- P3 lines 7 to 12: FAULT ignores writes and is left by reset. -/
theorem test_fault :
    statusAfter ((State.reset.raiseTrap 1).withAgenda [.hostWrite 2 4]) = some 0x00071008 ∧
    statusAfter ((State.reset.raiseTrap 1).withAgenda [.reset]) = some 0 := by decide

/-! ## Witnesses: for each statement with hypotheses, a state and operands that meet them -/

/-- A loaded key, under the engine contract: K1 is the subkey of the all-zero key. -/
def keyed (es : List Event) : State :=
  { State.reset with kv := true, k1 := subkey (zeros 32), agenda := es }

/-- A derived key on offer. -/
def offering (es : List Event) : State :=
  { State.reset with
    kv := true, dkv := true, dk := Vector.replicate 32 0x9B, nonce := Vector.replicate 24 0x41, agenda := es }

/-- A derivation whose request is presented, and the same one step later. -/
def presenting (es : List Event) : State := { State.reset with kv := true, ph := .drv1Req, agenda := es }
def waiting (es : List Event) : State := engineReady (presenting es)

/-- LOADKEY waiting for the engine's answer. -/
def loading (es : List Event) : State := engineReady (inPhase .initReq es)

/-- The block after the trap. -/
def trapped (es : List Event) : State := (State.reset.raiseTrap 1).withAgenda es

theorem step_answers (s : State) (e : Event) (rest : List Event) (h : s.agenda = e :: rest) :
    ∃ t, step s = .next t :=
  let ⟨t, ht, _⟩ := step_effect h
  ⟨t, ht⟩

theorem inv_offering : Inv (offering [.take]) := by constructor <;> decide
theorem inv_waiting : Inv (waiting [.aesAnswer]) := by constructor <;> decide
theorem inv_presenting : Inv (presenting [.hostWrite 2 4]) := by constructor <;> decide
theorem inv_loading (es : List Event) (h : es = [.aesAnswer] ∨ es = [.aesResp (Config.AESENC (zeros 32) zeroBlock)]) :
    Inv (loading es) := by
  rcases h with rfl | rfl <;> constructor <;> decide
theorem inv_trapped (es : List Event) (h : es = [.hostWrite 3 0] ∨ es = [.reset]) : Inv (trapped es) := by
  rcases h with rfl | rfl <;> constructor <;> decide

theorem witness_LegalWordsOfBothFormats :
    (0xFFFFFF41 : Word).extractLsb' 0 8 = (0x00000041 : Word).extractLsb' 0 8 := by decide
theorem witness_IllegalWordsAllBehaveTheSame :
    (∀ v ∈ ([0, 6, 0x102, 0xFFFFFFFF] : List Word), v ≠ 1 ∧ v ≠ 2 ∧ v ≠ 3 ∧ v ≠ 4 ∧ v ≠ 5) ∧
    (inPhase .idle []).ph = .idle ∧ (inPhase .initReq []).ph.busy = true ∧
    (inPhase .drv2Wait []).ph.busy = true ∧ (inPhase .fault []).ph = .fault :=
  ⟨by simp, rfl, rfl, rfl, rfl⟩
theorem witness_AccessesPortHCannotCarryAreRefused :
    (∀ addr ∈ [0, 28], addr % 4 = 0 ∧ addr < 32) ∧
    (∀ p ∈ [(32, 4), (2, 4), (0, 2)], ¬(p.2 = 4 ∧ p.1 % 4 = 0 ∧ p.1 < 32)) := by decide
theorem witness_StepRunsTheDecodedInstruction :
    (idleWith false false 0 [.hostWrite 2 1]).agenda = .hostWrite 2 1 :: [] ∧ decode 2 1 = .ok .loadkey ∧
    (idleWith false false 0 [.hostWrite 3 0x1AB]).agenda = .hostWrite 3 0x1AB :: [] ∧
    decode 3 0x1AB = .ok (.push 0xAB) := by decide
theorem witness_FetchWordRunsTheTableInstruction :
    decodeTableWord 32 1 = some .loadkey ∧ decodeTableWord 32 5 = some .zeroize ∧
    decodeTableWord 32 0xFFFFFFFF = some (.push 0xFF) := by decide
theorem witness_StepRunsEveryOtherEvent :
    (inPhase .idle []).agenda = [] ∧ (inPhase .idle []).ph ≠ .fault ∧
    (inPhase .fault []).agenda = [] ∧ (inPhase .fault []).ph = .fault ∧
    ∀ e ∈ [Event.aesAccept, .aesAnswer, .aesResp (zeros 16), .take, .reset],
      (inPhase .initWait [e]).agenda = e :: [] := by decide
theorem witness_HostReadsReturnTheRegisterMap :
    ∀ w : Slot, (inPhase .fault [.hostRead w]).agenda = .hostRead w :: [] := by decide
theorem witness_HostWritesBySlot :
    decode 2 4 = .ok .flush ∧ decode 2 0 = .error .illegalCommand ∧
    (0 : Slot) ≠ 2 ∧ (0 : Slot) ≠ 3 ∧ (1 : Slot) ≠ 2 ∧ (4 : Slot) ≠ 3 ∧ (7 : Slot) ≠ 2 ∧ (7 : Slot) ≠ 3 := by
  decide
theorem witness_PushStoresAndCounts :
    (0xAB : Byte) = (0x1AB : Word).extractLsb' 0 8 ∧ (inPhase .fault []).ph = .fault ∧
    (inPhase .drv1Wait []).ph.busy = true ∧
    ∀ n ∈ ([0, 31, 32, 62, 63] : List (BitVec 6)), (idleWith true true n []).ph = .idle := by decide
theorem witness_LoadkeyByCases :
    (idleWith true true 32 []).ph = .idle ∧ (idleWith true true 32 []).dkv = true ∧
    (∀ n ∈ ([0, 16, 31, 33, 63] : List (BitVec 6)), n ≠ 32 ∧ (idleWith false false n []).dkv = false) ∧
    (idleWith true false 32 []).ph = .idle ∧ (idleWith true false 32 []).dkv = false ∧
    (idleWith true false 32 []).ilen = 32 := by decide
theorem witness_DeriveSealByCases :
    (idleWith true true 24 []).ph = .idle ∧ (idleWith true true 24 []).dkv = true ∧
    (idleWith false false 24 []).dkv = false ∧ (idleWith false false 24 []).kv = false ∧
    (∀ n ∈ ([0, 12, 23, 25, 32, 63] : List (BitVec 6)),
      n ≠ 24 ∧ (idleWith true false n []).dkv = false ∧ (idleWith true false n []).kv = true) ∧
    (idleWith true false 24 []).ph = .idle ∧ (idleWith true false 24 []).kv = true ∧
    (idleWith true false 24 []).dkv = false ∧ (idleWith true false 24 []).ilen = 24 := by decide
theorem witness_DeriveOpenByCases :
    (idleWith true true 23 []).ph = .idle ∧ (idleWith true true 23 []).dkv = true ∧
    (idleWith false false 23 []).dkv = false ∧ (idleWith false false 23 []).kv = false ∧
    (∀ n ∈ ([0, 23, 25, 63] : List (BitVec 6)),
      n ≠ 24 ∧ (idleWith true false n []).dkv = false ∧ (idleWith true false n []).kv = true) ∧
    (idleWith true false 24 []).ph = .idle ∧ (idleWith true false 24 []).kv = true ∧
    (idleWith true false 24 []).dkv = false ∧ (idleWith true false 24 []).ilen = 24 := by decide
theorem witness_WrongSealLengthIsTheOnlyTrap :
    ∃ t, (idleWith true false 25 [.hostWrite 2 2]).agenda = .hostWrite 2 2 :: [] ∧
      step (idleWith true false 25 [.hostWrite 2 2]) = .next t ∧
      (idleWith true false 25 [.hostWrite 2 2]).ph = .idle ∧ (25 : BitVec 6) ≠ 24 ∧ t.ph = .fault :=
  ⟨_, rfl, rfl, rfl, by decide, rfl⟩
theorem witness_FlushAndZeroizeClear :
    (offering [.take]).ph = .idle ∧ Inv (offering [.take]) := ⟨rfl, inv_offering⟩
theorem witness_WritesWhileBusyAreDropped :
    ((2 : Slot) = 2 ∨ (2 : Slot) = 3) ∧ ((3 : Slot) = 2 ∨ (3 : Slot) = 3) ∧
    (inPhase .initReq []).ph.busy = true ∧ (inPhase .drv2Wait []).ph.busy = true ∧
    (inPhase .fault []).ph = .fault := by decide
theorem witness_HostOperationFrames :
    ∀ i ∈ [Instr.loadkey, .deriveSeal, .deriveOpen, .flush, .zeroize, .push 0xAB],
      (∃ t, exec i (idleWith true false 24 []) = .next t) ∧ ∃ t, exec i (inPhase .drv1Wait []) = .next t := by
  intro i _
  cases i <;> exact ⟨⟨_, rfl⟩, _, rfl⟩
theorem witness_RequestStepsSendTheBlockOfThePhase :
    ∀ p ∈ [Phase.initReq, .drv1Req, .drv2Req, .idle, .fault],
      (inPhase p [.aesAccept]).agenda = .aesAccept :: [] ∧ (inPhase p [.aesAccept]).ph = p := by decide
theorem witness_AnswersAreFoldedByPhase :
    ∀ p ∈ [Phase.initWait, .drv1Wait, .drv2Wait, .idle, .initReq, .fault],
      (inPhase p [.aesResp (zeros 16)]).agenda = .aesResp (zeros 16) :: [] ∧
      (inPhase p [.aesResp (zeros 16)]).ph = p := by decide
theorem witness_DeliveryHandsOverAndClears :
    (offering [.take]).agenda = .take :: [] ∧ (offering [.take]).dkv = true ∧
    (inPhase .idle [.take]).agenda = .take :: [] ∧ (inPhase .idle [.take]).dkv = false := by decide
theorem witness_PortAShowsTheRequestOnly :
    aReqValid (inPhase .initReq []) = true ∧ (inPhase .initReq []).ph.code = 1 ∧
    (inPhase .drv1Req []).ph.code = 3 ∧ (inPhase .drv2Req []).ph.code = 5 ∧
    aReqValid (inPhase .initWait []) = false := by decide
theorem witness_PortGShowsACompleteKeyOnly :
    (offering []).dkv = true ∧ (inPhase .drv2Req []).dkv = false := by decide
theorem witness_PhaseTransitionTable :
    ∃ t, (idleWith true false 24 [.hostWrite 2 3]).agenda = .hostWrite 2 3 :: [] ∧
      step (idleWith true false 24 [.hostWrite 2 3]) = .next t ∧ t.ph = .drv1Req := ⟨_, rfl, rfl, rfl⟩
theorem witness_RequestThenAnswerIsOneAesCall :
    aReqValid (inPhase .initReq []) = true ∧ aReqValid (inPhase .drv1Req []) = true ∧
    aReqValid (inPhase .drv2Req []) = true := by decide
theorem witness_OneEnabledStepPerWorkingPhase :
    Inv (presenting [.hostWrite 2 4]) ∧ (presenting [.hostWrite 2 4]).ph = .drv1Req ∧
    Inv (waiting [.aesAnswer]) ∧ (waiting [.aesAnswer]).ph = .drv1Wait ∧
    Inv (offering [.take]) ∧ (offering [.take]).dkv = true ∧ (waiting [.aesAnswer]).ph.busy = true :=
  ⟨inv_presenting, rfl, inv_waiting, rfl, inv_offering, rfl, rfl⟩
theorem witness_OrderOfWriteAndAnswerMatters : (loading []).ph = .initWait := by decide
theorem witness_BusPacksByteZeroFirst : 0 < 4 ∧ 3 < 4 := by decide
theorem witness_DoublerLaws :
    (zeros 16)[0].getLsbD 7 = false ∧ (Vector.replicate 16 (0x7F : Byte))[0].getLsbD 7 = false := by decide
theorem witness_KdfInputsDiffer : (zeros 12 : Bytes 12) ≠ Vector.replicate 12 0x41 := by decide
theorem witness_NonceHalvesDoNotMix :
    nonceN1 (zeros 24) = nonceN1 (joinBytes (zeros 12) (Vector.replicate 12 (0x41 : Byte))) ∧
    nonceN2 (zeros 24) = nonceN2 (joinBytes (Vector.replicate 12 (0x41 : Byte)) (zeros 12)) := by decide
theorem witness_StepKeepsTheInvariants :
    Inv (waiting [.aesAnswer]) ∧ ∃ t, step (waiting [.aesAnswer]) = .next t :=
  ⟨inv_waiting, step_answers _ _ _ rfl⟩
theorem witness_ContractStepKeepsTheSubkey :
    Inv (loading [.aesResp (Config.AESENC (zeros 32) zeroBlock)]) ∧
    KeyMatches (loading [.aesResp (Config.AESENC (zeros 32) zeroBlock)]) ∧
    KeepsContract (loading [.aesResp (Config.AESENC (zeros 32) zeroBlock)]) ∧
    ∃ t, step (loading [.aesResp (Config.AESENC (zeros 32) zeroBlock)]) = .next t := by
  refine ⟨inv_loading _ (.inr rfl), fun h => ?_, fun r rest h => ?_, step_answers _ _ _ rfl⟩
  · cases h
  · cases h
    exact ⟨_, rfl, rfl⟩
theorem witness_KeyMatches : (keyed []).kv = true ∧ (keyed []).k1 = subkey (keyed []).masterKey := ⟨rfl, rfl⟩

/-- 32 pushes, LOADKEY, the engine, then `tail`. -/
def keyThen (tail : List Event) : State :=
  State.reset.withAgenda
    (List.replicate 32 (.hostWrite 3 0x20) ++ [.hostWrite 2 1, .aesAccept, .aesAnswer] ++ tail)

/-- The state after `n` steps, if they complete. -/
def stateAfter (n : Nat) (s : State) : Option State :=
  match Host.Core.run Sys2Proof.core n s with
  | .next t => some t
  | .fault _ | .refused _ => none

/-- A state that a run of `n` steps reaches, whose STATUS is as given, is reachable under the contract. -/
theorem reached {n : Nat} {es : List Event} {w : Word} (hes : ∀ r, .aesResp r ∉ es)
    (h : (stateAfter n (State.reset.withAgenda es)).map statusWord = some w) :
    ∃ s, ContractReachable s ∧ statusWord s = w := by
  unfold stateAfter at h
  split at h
  · rename_i t ht
    exact ⟨t, ContractReachable.run (.start es) hes ht, Option.some.inj h⟩
  all_goals simp at h

/-- Reachable states with a key (STATUS 2), with LOADKEY waiting (0x00020001), with an output on offer
(6), inside a derivation (0x00050003) and in FAULT (0x00071008), as in P1 and P3. -/
theorem witness_EveryReachableStateMeetsTheInvariants :
    (∃ s, ContractReachable s ∧ statusWord s = 2) ∧
    (∃ s, ContractReachable s ∧ statusWord s = 0x00020001) ∧
    (∃ s, ContractReachable s ∧ statusWord s = 6) ∧
    (∃ s, ContractReachable s ∧ statusWord s = 0x00050003) ∧
    ∃ s, ContractReachable s ∧ statusWord s = 0x00071008 := by
  refine ⟨reached (n := 35) (es := (keyThen []).agenda) ?_ ?_, reached (n := 34) (es := (keyThen []).agenda) ?_ ?_,
    reached (n := 64)
      (es := (keyThen (List.replicate 24 (.hostWrite 3 0x41) ++
        [.hostWrite 2 2, .aesAccept, .aesAnswer, .aesAccept, .aesAnswer])).agenda) ?_ ?_,
    reached (n := 62)
      (es := (keyThen (List.replicate 24 (.hostWrite 3 0x41) ++ [.hostWrite 2 3, .aesAccept, .aesAnswer])).agenda)
      ?_ ?_,
    reached (n := 36) (es := (keyThen [.hostWrite 2 2]).agenda) ?_ ?_⟩
  all_goals first
    | (intro r; simp [keyThen, State.withAgenda])
    | decide +kernel

theorem witness_KeyAndSubkeyAreFixedWhileKeyValid :
    (Inv (waiting [.aesAnswer]) ∧ (waiting [.aesAnswer]).kv = true ∧
      ∃ t, step (waiting [.aesAnswer]) = .next t ∧ t.kv = true) ∧
    (Inv (loading [.aesAnswer]) ∧ (loading [.aesAnswer]).kv = false ∧
      ∃ t, step (loading [.aesAnswer]) = .next t ∧ t.kv = true) ∧
    ∃ t, (offering [.hostWrite 2 5]).kv = true ∧ step (offering [.hostWrite 2 5]) = .next t ∧ t.kv = false :=
  ⟨⟨inv_waiting, rfl, _, rfl, rfl⟩, ⟨inv_loading _ (.inl rfl), rfl, _, rfl, rfl⟩, _, rfl, rfl, rfl⟩
theorem witness_OverrunIsSticky :
    (∃ t, step (inPhase .initReq [.hostWrite 3 0xAA]) = .next t ∧
      (inPhase .initReq [.hostWrite 3 0xAA]).ph.busy = true ∧
      (Event.hostWrite 3 0xAA).isPushOrCommand = true ∧ t.ovr = true) ∧
    ∃ t, step { idleWith true false 0 [.hostWrite 2 4] with ovr := true } = .next t ∧ t.ovr = false :=
  ⟨⟨_, rfl, rfl, rfl, rfl⟩, _, rfl, rfl⟩
theorem witness_CodesAreWrittenOnlyByTheirEvents :
    (∃ t, step (idleWith false false 0 [.hostWrite 2 0]) = .next t ∧ t.err ≠ 0) ∧
    ∃ t, step (idleWith true false 25 [.hostWrite 2 2]) = .next t ∧ t.fcause ≠ 0 :=
  ⟨⟨_, rfl, by decide⟩, _, rfl, by decide⟩
theorem witness_FaultIsLeftOnlyByReset :
    (Inv (trapped [.hostWrite 3 0]) ∧ (trapped [.hostWrite 3 0]).ph = .fault ∧
      ∃ t, step (trapped [.hostWrite 3 0]) = .next t) ∧
    Inv (trapped [.reset]) ∧ ∃ t, step (trapped [.reset]) = .next t :=
  ⟨⟨inv_trapped _ (.inl rfl), rfl, _, rfl⟩, inv_trapped _ (.inr rfl), _, rfl⟩
theorem witness_ResetClearsEverything : (waiting [.reset]).agenda = .reset :: [] := by decide
theorem witness_SecretsDoNotLeak :
    PublicEq (idleWith true false 3 [.hostWrite 3 0x11])
      { idleWith true false 3 [.hostWrite 3 0x22] with masterKey := Vector.replicate 32 0x20 } := by
  constructor <;> first | rfl | exact .nil | exact .cons ⟨rfl, .inl rfl⟩ .nil
theorem witness_HangsLastUntilTheirEvent :
    (inPhase .initReq [.hostWrite 2 4, .take]).agenda = [.hostWrite 2 4, .take] ++ [] ∧
    aReqValid (inPhase .initReq []) = true ∧ .aesAccept ∉ ([.hostWrite 2 4, .take] : List Event) ∧
    .reset ∉ ([.hostWrite 2 4, .take] : List Event) ∧
    (waiting [.hostRead 1]).ph = .drv1Wait ∧ .aesAnswer ∉ ([.hostRead 1] : List Event) ∧
    (∀ r, .aesResp r ∉ ([.hostRead 1] : List Event)) ∧
    (offering [.hostWrite 2 1]).ph = .idle ∧ (offering [.hostWrite 2 1]).dkv = true ∧
    .take ∉ ([.hostWrite 2 1] : List Event) ∧ .hostWrite 2 4 ∉ ([.hostWrite 2 1] : List Event) ∧
    .hostWrite 2 5 ∉ ([.hostWrite 2 1] : List Event) ∧ (trapped []).ph = .fault :=
  ⟨rfl, rfl, by decide, by decide, rfl, by decide, fun r => by simp, rfl, rfl, by decide, by decide, by decide, rfl⟩
theorem witness_NotBusyLastsUntilTheNextCommand :
    (idleWith true false 0 [.hostWrite 3 1, .hostRead 1]).ph.busy = false ∧
    (idleWith true false 0 [.hostWrite 3 1, .hostRead 1]).agenda = [.hostWrite 3 1] ++ [.hostRead 1] ∧
    ∀ v, .hostWrite 2 v ∉ ([.hostWrite 3 1] : List Event) := ⟨rfl, rfl, fun v => by simp⟩
theorem witness_PushedBytesCollectInOrder :
    ∀ bs ∈ ([[], [0x41, 0x42], List.replicate 33 0x20] : List (List Byte)),
      (idleWith false false 0 (lineEvents (.pushs bs) ++ [.take])).ph = .idle ∧
      (idleWith false false 0 (lineEvents (.pushs bs) ++ [.take])).ilen = 0 ∧
      (idleWith false false 0 (lineEvents (.pushs bs) ++ [.take])).ibuf = zeros 32 ∧
      (idleWith false false 0 (lineEvents (.pushs bs) ++ [.take])).agenda = lineEvents (.pushs bs) ++ [.take] :=
  fun _ _ => ⟨rfl, rfl, rfl, rfl⟩
theorem witness_LoadkeyBuildsTheSubkey :
    (idleWith false false 32 [writeOp .loadkey, .aesAccept, .aesAnswer]).ph = .idle ∧
    (idleWith false false 32 [writeOp .loadkey, .aesAccept, .aesAnswer]).dkv = false ∧
    (idleWith false false 32 [writeOp .loadkey, .aesAccept, .aesAnswer]).ilen = 32 ∧
    (idleWith false false 32 [writeOp .loadkey, .aesAccept, .aesAnswer]).agenda =
      writeOp .loadkey :: .aesAccept :: .aesAnswer :: [] := by decide
theorem witness_DerivationDelivers :
    ∀ op ∈ [Instr.deriveSeal, .deriveOpen],
      (op = .deriveSeal ∨ op = .deriveOpen) ∧
      (idleWith true false 24 [writeOp op, .aesAccept, .aesAnswer, .aesAccept, .aesAnswer, .take]).ph = .idle ∧
      (idleWith true false 24 [writeOp op, .aesAccept, .aesAnswer, .aesAccept, .aesAnswer, .take]).ilen = 24 ∧
      (idleWith true false 24 [writeOp op, .aesAccept, .aesAnswer, .aesAccept, .aesAnswer, .take]).kv = true := by
  decide
theorem witness_BlockComputesTheKeyDerivation (MK : Bytes 32) (N : Bytes 24) :
    let es := lineEvents (.pushs MK.toList) ++ [writeOp .loadkey, .aesAccept, .aesAnswer] ++
      lineEvents (.pushs N.toList) ++
      [writeOp .deriveSeal, .aesAccept, .aesAnswer, .aesAccept, .aesAnswer, .take] ++ []
    (State.reset.withAgenda es).ph = .idle ∧ (State.reset.withAgenda es).dkv = false ∧
    (State.reset.withAgenda es).ilen = 0 ∧ (State.reset.withAgenda es).ibuf = zeros 32 ∧
    (State.reset.withAgenda es).agenda = es := ⟨rfl, rfl, rfl, rfl, rfl⟩

end Sys2Proof.Tests
end

/-! SUPPORT. The integer of a byte string as base-256 digits, and the bus as a bijection between byte
strings and bus values (00_scope.md R9). -/

namespace Sys2Proof.Machine

/-- The base-256 digits of `byteInt B`, least significant first: the bytes of `B` from the last to the first. -/
def byteDigits {n : Nat} (B : Bytes n) : List Nat := B.toList.reverse.map BitVec.toNat

@[simp] theorem length_byteDigits {n : Nat} (B : Bytes n) : (byteDigits B).length = n := by
  simp [byteDigits]

theorem getElem_byteDigits {n : Nat} (B : Bytes n) (k : Nat) (hk : k < (byteDigits B).length) :
    (byteDigits B)[k] = (B[n - 1 - k]'(by rw [length_byteDigits] at hk; omega)).toNat := by
  simp [byteDigits]

theorem byteDigits_lt {n : Nat} (B : Bytes n) : ∀ d ∈ byteDigits B, d < 256 := by
  intro d hd
  obtain ⟨b, -, rfl⟩ := List.mem_map.mp hd
  exact b.isLt

/-- Horner's rule, which `byteInt` folds from byte 0 on, evaluates those digits. -/
theorem byteInt_eq_ofDigits {n : Nat} (B : Bytes n) : byteInt B = Nat.ofDigits 256 (byteDigits B) := by
  rw [byteInt, byteDigits, List.foldl_eq_foldr_reverse, Nat.ofDigits_eq_foldr, List.foldr_map]
  simp [add_comm, mul_comm]

theorem byteInt_lt {n : Nat} (B : Bytes n) : byteInt B < 256 ^ n := by
  rw [byteInt_eq_ofDigits]
  simpa using Nat.ofDigits_lt_base_pow_length (by omega) (byteDigits_lt B)

theorem byteInt_eq_sum {n : Nat} (B : Bytes n) :
    byteInt B = ∑ i : Fin n, B[i.val].toNat * 256 ^ (n - 1 - i.val) := by
  have hlist : (byteDigits B).mapIdx (fun k d => d * 256 ^ k) =
      List.ofFn fun k : Fin n => B[k.rev.val].toNat * 256 ^ k.val := by
    apply List.ext_getElem
    · simp
    · intro k h _
      simp [getElem_byteDigits, Nat.sub_sub, Nat.add_comm 1]
  calc byteInt B = ∑ k : Fin n, B[k.rev.val].toNat * 256 ^ k.val := by
        rw [byteInt_eq_ofDigits, Nat.ofDigits_eq_sum_mapIdx, hlist, List.sum_ofFn]
    _ = ∑ i : Fin n, B[i.val].toNat * 256 ^ i.rev.val := by
        simpa using (Equiv.sum_comp Fin.revPerm fun i : Fin n => B[i.val].toNat * 256 ^ i.rev.val)
    _ = ∑ i : Fin n, B[i.val].toNat * 256 ^ (n - 1 - i.val) := by
        simp [Nat.sub_sub, Nat.add_comm 1]

/-- Dividing away the bytes after `B[i]` leaves `B[i]` as the last digit. -/
theorem byteInt_div_pow_mod {n : Nat} (B : Bytes n) (i : Nat) (hi : i < n) :
    byteInt B / 256 ^ (n - 1 - i) % 256 = B[i].toNat := by
  have hk : n - 1 - i < (byteDigits B).length := by rw [length_byteDigits]; omega
  have hlast : n - 1 - (n - 1 - i) = i := by omega
  rw [byteInt_eq_ofDigits, Nat.ofDigits_div_pow_eq_ofDigits_drop _ (by omega) _ (byteDigits_lt B),
    List.drop_eq_getElem_cons hk, Nat.ofDigits_cons, Nat.add_mul_mod_self_left,
    getElem_byteDigits]
  simp only [hlast]
  exact Nat.mod_eq_of_lt B[i].isLt

theorem toNat_bus {n : Nat} (B : Bytes n) : (bus B).toNat = byteInt B := by
  have hlt : byteInt B < 2 ^ (8 * n) := by simpa [pow_mul] using byteInt_lt B
  rw [bus, BitVec.toNat_ofNat, Nat.mod_eq_of_lt hlt]

theorem extractLsb'_bus {n : Nat} (B : Bytes n) (i : Nat) (hi : i < n) :
    (bus B).extractLsb' (8 * (n - 1 - i)) 8 = B[i] := by
  apply BitVec.eq_of_toNat_eq
  rw [BitVec.extractLsb'_toNat, toNat_bus, Nat.shiftRight_eq_div_pow, pow_mul]
  exact byteInt_div_pow_mod B i hi

@[simp] theorem ofBus_bus {n : Nat} (B : Bytes n) : ofBus (bus B) = B := by
  apply Vector.ext
  intro i hi
  rw [getElem_ofBus, extractLsb'_bus]

/-- Bit `j` of a bus value lies in the byte `n - 1 - j / 8` it carries. -/
theorem getLsbD_eq_getLsbD_ofBus {n : Nat} (x : BitVec (8 * n)) (j : Nat) (hj : j < 8 * n) :
    x.getLsbD j = ((ofBus x)[n - 1 - j / 8]'(by omega)).getLsbD (j % 8) := by
  have hpos : 8 * (n - 1 - (n - 1 - j / 8)) + j % 8 = j := by omega
  rw [getElem_ofBus, BitVec.getLsbD_extractLsb', hpos]
  simp [Nat.mod_lt]

theorem ofBus_injective {n : Nat} : Function.Injective (ofBus (n := n)) := by
  intro x y hxy
  apply BitVec.eq_of_getLsbD_eq
  intro j hj
  rw [getLsbD_eq_getLsbD_ofBus x j hj, getLsbD_eq_getLsbD_ofBus y j hj, hxy]

@[simp] theorem bus_ofBus {n : Nat} (x : BitVec (8 * n)) : bus (ofBus x) = x :=
  ofBus_injective (ofBus_bus (ofBus x))

/-- Settles O34: the bus carries the digits of the integer, and a byte string and its bus value determine
each other. -/
theorem busPacksByteZeroFirst : Obligations.BusPacksByteZeroFirst := by
  unfold Obligations.BusPacksByteZeroFirst
  exact fun _ B => ⟨extractLsb'_bus B, toNat_bus B, byteInt_eq_sum B, ofBus_bus B, bus_ofBus⟩

end Sys2Proof.Machine

/-! SUPPORT. The two-state lemmas of noninterference (10_state.md R40; 70_reset_and_hazards.md R231): every
operation of the machine takes a pair of states that differ at most in secret bytes to such a pair. -/

namespace Sys2Proof.Machine

/-- The two functions take two states that differ at most in secret bytes to two such states. -/
def KeepsPublicEq (f g : State → State) : Prop := ∀ ⦃s t : State⦄, PublicEq s t → PublicEq (f s) (g t)

/-! ### The shared operations and the host operations -/

theorem record_publicEq (x y : PortEvent) (h : x.PublicEq y) :
    KeepsPublicEq (State.record x) (State.record y) :=
  fun _ _ hst => { hst with trace := .cons h hst.trace }

theorem consume_publicEq : KeepsPublicEq State.consume State.consume :=
  fun _ _ hst => { hst with ilen := rfl }

theorem raiseError_publicEq (c : BitVec 4) : KeepsPublicEq (State.raiseError c) (State.raiseError c) :=
  fun _ _ hst => { hst with err := rfl }

theorem consume_raiseError_publicEq (c : BitVec 4) :
    KeepsPublicEq (fun s => s.consume.raiseError c) (fun t => t.consume.raiseError c) :=
  fun _ _ hst => raiseError_publicEq c (consume_publicEq hst)

theorem raiseTrap_publicEq (c : BitVec 4) : KeepsPublicEq (State.raiseTrap c) (State.raiseTrap c) :=
  fun _ _ hst =>
    { hst with ilen := rfl, kv := rfl, dkv := rfl, ovr := rfl, err := rfl, fcause := rfl, ph := rfl }

theorem applyReset_publicEq : KeepsPublicEq State.applyReset State.applyReset :=
  fun _ _ hst =>
    { hst with
      ilen := rfl, kv := rfl, dkv := rfl, ovr := rfl, err := rfl, fcause := rfl, ph := rfl, engine := rfl }

/-- The gate reads only the phase, which is public. -/
theorem hostGate_publicEq {f g : State → State} (hfg : KeepsPublicEq f g) :
    KeepsPublicEq (hostGate f) (hostGate g) := by
  intro s t hst
  rcases hostGate_cases f s with ⟨hp, h⟩ | ⟨hp, h⟩ | ⟨hp, h⟩ <;> rw [h] <;> rw [hst.ph] at hp
  · rw [hostGate_idle hp]
    exact hfg hst
  · rw [hostGate_fault hp]
    exact hst
  · rw [hostGate_busy hp]
    exact { hst with ovr := rfl }

/-- The two pushed bytes may differ: they go to IBUF, and the count does not read them. -/
theorem pushExamined_publicEq (b c : Byte) : KeepsPublicEq (pushExamined b) (pushExamined c) :=
  fun s t hst => { hst with ilen := show countedPush s = countedPush t by simp only [countedPush, hst.ilen] }

theorem loadkeyExamined_publicEq : KeepsPublicEq loadkeyExamined loadkeyExamined := by
  intro s t hst
  unfold loadkeyExamined
  rw [← hst.dkv, ← hst.ilen]
  split_ifs
  · exact consume_raiseError_publicEq errOutputPending hst
  · exact consume_raiseError_publicEq errInvalidKeyLength hst
  · exact { hst with ilen := rfl, kv := rfl, err := rfl, ph := rfl }

theorem startDerivation_publicEq : KeepsPublicEq startDerivation startDerivation :=
  fun _ _ hst => { hst with ilen := rfl, err := rfl, ph := rfl }

theorem deriveExamined_publicEq {f : State → State} (hf : KeepsPublicEq f f) :
    KeepsPublicEq (deriveExamined f) (deriveExamined f) := by
  intro s t hst
  unfold deriveExamined
  rw [← hst.dkv, ← hst.kv, ← hst.ilen]
  split_ifs
  · exact consume_raiseError_publicEq errOutputPending hst
  · exact consume_raiseError_publicEq errNoKey hst
  · exact hf hst
  · exact startDerivation_publicEq hst

theorem flush_publicEq : KeepsPublicEq (fun s => s.consume.dropCall) (fun t => t.consume.dropCall) :=
  fun _ _ hst => { hst with ilen := rfl, dkv := rfl, err := rfl, ovr := rfl }

theorem zeroize_publicEq :
    KeepsPublicEq
      (fun s => { s.consume.dropCall with masterKey := zeros 32, k1 := zeros 16, kv := false })
      (fun t => { t.consume.dropCall with masterKey := zeros 32, k1 := zeros 16, kv := false }) :=
  fun _ _ hst => { hst with ilen := rfl, kv := rfl, dkv := rfl, err := rfl, ovr := rfl }

/-- A CMD write is the same function of the state in both runs, and keeps the pair. -/
theorem memWrite_cmd_publicEq (v : Word) :
    ∃ f, (∀ s, memWrite 2 v s = .next (f s)) ∧ KeepsPublicEq f f := by
  rcases memWrite_cmd_cases v with ⟨-, h⟩ | ⟨-, h⟩ | ⟨-, h⟩ | ⟨-, h⟩ | ⟨-, h⟩ | ⟨-, h⟩
  · exact ⟨_, h, hostGate_publicEq loadkeyExamined_publicEq⟩
  · exact ⟨_, h, hostGate_publicEq (deriveExamined_publicEq (raiseTrap_publicEq 1))⟩
  · exact ⟨_, h, hostGate_publicEq (deriveExamined_publicEq (consume_raiseError_publicEq 2))⟩
  · exact ⟨_, h, hostGate_publicEq flush_publicEq⟩
  · exact ⟨_, h, hostGate_publicEq zeroize_publicEq⟩
  · exact ⟨_, h, hostGate_publicEq (raiseError_publicEq 3)⟩

/-- A host write with the same word in both runs, or of a pushed byte that may differ, keeps the pair. -/
theorem memWrite_publicEq {w : Slot} {v v' : Word} (hv : w = Config.slotDin ∨ v = v') :
    ∃ f g, (∀ s, memWrite w v s = .next (f s)) ∧ (∀ t, memWrite w v' t = .next (g t)) ∧
      KeepsPublicEq f g := by
  by_cases h3 : w = 3
  · subst h3
    exact ⟨_, _, fun _ => rfl, fun _ => rfl, hostGate_publicEq (pushExamined_publicEq _ _)⟩
  · obtain rfl : v = v' := hv.resolve_left h3
    by_cases h2 : w = 2
    · subst h2
      obtain ⟨f, hf, hk⟩ := memWrite_cmd_publicEq v
      exact ⟨f, f, hf, hf, hk⟩
    · exact ⟨id, id, memWrite_otherSlot h2 h3 v, memWrite_otherSlot h2 h3 v, fun _ _ hst => hst⟩

/-- A host read returns a public word. -/
theorem memRead_publicEq {s t : State} (hst : PublicEq s t) (w : Slot) : memRead w s = memRead w t := by
  simp only [memRead, statusWord, hst.ilen, hst.kv, hst.dkv, hst.ovr, hst.err, hst.fcause, hst.ph]

/-! ### The engine and the consumer -/

/-- The blocks of the two requests may differ. -/
theorem acceptRequest_publicEq {s t : State} (hst : PublicEq s t) (b c : Bytes 16) (p : Phase) :
    PublicEq (acceptRequest b p s) (acceptRequest c p t) :=
  { hst with ph := rfl, engine := rfl, trace := .cons trivial hst.trace }

theorem engineReady_publicEq : KeepsPublicEq engineReady engineReady := by
  intro s t hst
  unfold engineReady
  rw [← hst.ph]
  cases s.ph with
  | initReq | drv1Req | drv2Req => exact acceptRequest_publicEq hst _ _ _
  | idle | initWait | drv1Wait | drv2Wait | fault => exact hst

/-- The two answers may differ: they go to K1 and DK. -/
theorem takeAnswer_publicEq (r q : Bytes 16) : KeepsPublicEq (takeAnswer r) (takeAnswer q) := by
  intro s t hst
  unfold takeAnswer
  rw [← hst.ph]
  cases s.ph with
  | initWait => exact { hst with kv := rfl, ph := rfl }
  | drv1Wait => exact { hst with ph := rfl }
  | drv2Wait => exact { hst with dkv := rfl, ph := rfl }
  | idle | initReq | drv1Req | drv2Req | fault => exact hst

theorem answerArrives_publicEq (r q : Bytes 16) : KeepsPublicEq (answerArrives r) (answerArrives q) :=
  fun _ _ hst => takeAnswer_publicEq r q { hst with engine := rfl, trace := .cons trivial hst.trace }

/-- Whether the engine holds a request is public, so both engines answer or neither does. -/
theorem engineAnswers_publicEq : KeepsPublicEq engineAnswers engineAnswers := by
  intro s t hst
  cases hs : s.engine with
  | none =>
    have ht : t.engine = none := by simpa [hs] using hst.engine
    simpa [engineAnswers, hs, ht] using hst
  | some q =>
    obtain ⟨p, ht⟩ : ∃ p, t.engine = some p := by
      rw [← Option.isSome_iff_exists, ← hst.engine, hs, Option.isSome_some]
    simpa [engineAnswers, hs, ht] using answerArrives_publicEq _ _ hst

theorem consumerReady_publicEq : KeepsPublicEq consumerReady consumerReady := by
  intro s t hst
  unfold consumerReady
  rw [← hst.dkv]
  split_ifs
  · exact { hst with dkv := rfl, trace := .cons trivial hst.trace }
  · exact hst

/-! ### The step -/

/-- Two events that differ at most in secret bytes complete in both states and keep the pair. -/
theorem runEvent_publicEq : ∀ {e e' : Event}, e.PublicEq e' → ∀ {s t : State}, PublicEq s t →
    ∃ s' t', runEvent e s = .next s' ∧ runEvent e' t = .next t' ∧ PublicEq s' t'
  | .hostWrite w v, .hostWrite _ v', ⟨rfl, hv⟩, s, t, hst => by
    obtain ⟨f, g, hf, hg, hk⟩ := memWrite_publicEq hv
    exact ⟨_, _, hf _, hg _, hk (record_publicEq (.hostWrite w v) (.hostWrite w v') ⟨rfl, hv⟩ hst)⟩
  | .hostRead w, .hostRead _, rfl, s, t, hst =>
    ⟨_, _, rfl, rfl,
      record_publicEq (.hostRead w _) (.hostRead w _) ⟨rfl, memRead_publicEq hst w⟩ hst⟩
  | .aesAccept, .aesAccept, _, _, _, hst => ⟨_, _, rfl, rfl, engineReady_publicEq hst⟩
  | .aesAnswer, .aesAnswer, _, _, _, hst => ⟨_, _, rfl, rfl, engineAnswers_publicEq hst⟩
  | .aesResp r, .aesResp q, _, _, _, hst => ⟨_, _, rfl, rfl, answerArrives_publicEq r q hst⟩
  | .take, .take, _, _, _, hst => ⟨_, _, rfl, rfl, consumerReady_publicEq hst⟩
  | .reset, .reset, _, _, _, hst =>
    ⟨_, _, rfl, rfl, record_publicEq .reset .reset trivial (applyReset_publicEq hst)⟩

/-- With an event scheduled both states step, to states that differ at most in secret bytes. -/
theorem step_publicEq_of_scheduled {s t : State} (hst : PublicEq s t) (h : s.agenda ≠ []) :
    ∃ s' t', step s = .next s' ∧ step t = .next t' ∧ PublicEq s' t' := by
  have hag := hst.agenda
  cases hs : s.agenda with
  | nil => exact absurd hs h
  | cons e rest =>
    rw [hs] at hag
    obtain ⟨e', rest', he, hrest, ht⟩ := List.forall₂_cons_left_iff.mp hag
    rw [step_cons hs, step_cons ht]
    exact runEvent_publicEq he { hst with agenda := hrest }

/-- With nothing scheduled both states stay, or both stop with the same fault. -/
theorem step_publicEq_of_unscheduled {s t : State} (hst : PublicEq s t) (h : s.agenda = []) :
    (step s = .next s ∧ step t = .next t) ∨ ∃ a, step s = .fault a ∧ step t = .fault a := by
  have ht : t.agenda = [] := by simpa [h] using hst.agenda
  rw [step_nil h, step_nil ht, runNothing, runNothing, ← hst.ph, ← hst.fcause]
  split_ifs
  · exact .inr ⟨_, rfl, rfl⟩
  · exact .inl ⟨rfl, rfl⟩

/-- Settles O52: every operation reads only public state to decide what public state becomes. -/
theorem secretsDoNotLeak : Obligations.SecretsDoNotLeak := by
  unfold Obligations.SecretsDoNotLeak
  refine fun s t hst => ⟨memRead_publicEq hst, ?_⟩
  by_cases h : s.agenda = []
  · rcases step_publicEq_of_unscheduled hst h with ⟨hs, ht⟩ | ⟨a, hs, ht⟩ <;> rw [hs, ht]
    exact hst
  · obtain ⟨s', t', hs, ht, h'⟩ := step_publicEq_of_scheduled hst h
    rw [hs, ht]
    exact h'

end Sys2Proof.Machine

/-! SUPPORT. The STATUS word as a number (10_state.md R39), and what reset leaves on the three ports
(10_state.md R42; 70_reset_and_hazards.md R215, R217). -/

namespace Sys2Proof.Machine

theorem toNat_append_eq_add {m n : Nat} (x : BitVec m) (y : BitVec n) :
    (x ++ y).toNat = x.toNat * 2 ^ n + y.toNat := by
  rw [BitVec.toNat_append, ← Nat.shiftLeft_add_eq_or_of_lt y.isLt, Nat.shiftLeft_eq]

theorem Phase.isFault_eq_decide (p : Phase) : p.isFault = decide (p = .fault) := by
  cases p <;> rfl

/-- The fields of STATUS at their places: appending a field of `n` bits multiplies what stands above it by `2^n`. -/
theorem toNat_statusWord (s : State) :
    (statusWord s).toNat = s.ph.busy.toNat + 2 * s.kv.toNat + 4 * s.dkv.toNat +
      8 * (decide (s.ph = .fault)).toNat + 16 * s.ovr.toNat + 256 * s.err.toNat +
      4096 * s.fcause.toNat + 65536 * s.ph.code.toNat := by
  rw [← Phase.isFault_eq_decide]
  simp only [statusWord, toNat_append_eq_add, BitVec.toNat_ofBool, BitVec.toNat_ofNat]
  omega

theorem memRead_status (s : State) : memRead 1 s = statusWord s := rfl

/-- Settles O13: STATUS is the sum of its fields, and slot 1 is read-only. -/
theorem statusWordIsTheSumOfItsFields : Obligations.StatusWordIsTheSumOfItsFields := by
  unfold Obligations.StatusWordIsTheSumOfItsFields
  exact fun s v =>
    ⟨memRead_status s, toNat_statusWord s, rfl, memWrite_otherSlot (by decide) (by decide) v s⟩

/-- Every field of STATUS is zero after reset. -/
theorem statusWord_applyReset_record (e : PortEvent) (s : State) :
    statusWord (s.applyReset.record e) = 0 := by
  apply BitVec.eq_of_toNat_eq
  rw [toNat_statusWord]
  rfl

/-- Port A presents nothing in a phase without a request (R60, R61). -/
theorem portA_zero {s : State} (h : aReqValid s = false) : aKey s = 0 ∧ aBlock s = 0 := by
  refine ⟨by simp [aKey, h], ?_⟩
  cases hp : s.ph <;> simp_all [aReqValid, aBlock]

/-- Port G presents nothing while DKV = 0 (R64). -/
theorem portG_zero {s : State} (h : s.dkv = false) : gKey s = 0 ∧ gNonce s = 0 := by
  simp [gKey, gNonce, gValid, h]

theorem step_reset {s : State} {rest : List Event} (h : s.agenda = .reset :: rest) :
    step s = .next ((s.withAgenda rest).applyReset.record .reset) := step_cons h

/-- Settles O51: reset writes every register, and idle phase and DKV = 0 keep the ports at zero. -/
theorem resetClearsEverything : Obligations.ResetClearsEverything := by
  unfold Obligations.ResetClearsEverything
  intro s rest h
  obtain ⟨hkey, hblock⟩ := portA_zero (s := (s.withAgenda rest).applyReset.record .reset) rfl
  obtain ⟨hdk, hn2⟩ := portG_zero (s := (s.withAgenda rest).applyReset.record .reset) rfl
  exact ⟨_, step_reset h, rfl, rfl, rfl, rfl, rfl, rfl, rfl, rfl, rfl, rfl, rfl, rfl, rfl,
    statusWord_applyReset_record _ _, rfl, rfl, rfl, rfl, hkey, hblock, hdk, hn2⟩

end Sys2Proof.Machine

/-! SUPPORT. What the effects of an event can do to one part of the state, said once from `Effect`: the key
(10_state.md R28, R44), OVR (R30), ERR and FCAUSE (R31, R32). -/

namespace Sys2Proof.Machine

/-! ### ERR and FCAUSE -/

/-- ERR changes only at a CMD write examined in IDLE and at reset. -/
theorem Effect.err_cases {s t : State} {e : Event} (he : Effect s e t) :
    t.err = s.err ∨ e = .reset ∨ (s.ph = .idle ∧ ∃ v, e = .hostWrite 2 v) := by
  cases he with
  | keyPending hp | keyLength hp | keyStarted hp | sealTrapped hp | openLength hp | flushed hp | zeroized hp =>
    exact .inr (.inr ⟨hp, _, rfl⟩)
  | derivePending _ hp | deriveNoKey _ hp | deriveStarted _ hp | illegal _ hp =>
    exact .inr (.inr ⟨hp, _, rfl⟩)
  | reset => exact .inr (.inl rfl)
  | _ => exact .inl rfl

/-- FCAUSE changes only at the trap and at reset. -/
theorem Effect.fcause_cases {s t : State} {e : Event} (he : Effect s e t) :
    t.fcause = s.fcause ∨ e = .reset ∨
      (s.ph = .idle ∧ e = .hostWrite 2 2 ∧ t.ph = .fault ∧ t.fcause = 1) := by
  cases he with
  | sealTrapped hp => exact .inr (.inr ⟨hp, rfl, rfl, rfl⟩)
  | reset => exact .inr (.inl rfl)
  | _ => exact .inl rfl

theorem Effect.of_reset {s t : State} (he : Effect s .reset t) : t = s.applyReset.record .reset := by
  cases he
  rfl

/-- The effect of a step that is known to answer `t`. -/
theorem effect_of_step {s t : State} {e : Event} {rest : List Event} (ha : s.agenda = e :: rest)
    (h : step s = .next t) : Effect (s.withAgenda rest) e t := by
  obtain ⟨u, hu, he⟩ := step_effect ha
  obtain rfl : u = t := Host.Outcome.next.inj (hu.symm.trans h)
  exact he

/-- Settles O49: what the effects do to the two code fields. -/
theorem codesAreWrittenOnlyByTheirEvents : Obligations.CodesAreWrittenOnlyByTheirEvents := by
  unfold Obligations.CodesAreWrittenOnlyByTheirEvents
  intro s t e rest ha h
  have he := effect_of_step ha h
  refine ⟨he.err_cases.resolve_left, he.fcause_cases.resolve_left, ?_⟩
  rintro rfl
  rw [he.of_reset]
  exact ⟨rfl, rfl⟩

/-! ### OVR -/

/-- The event clears OVR: reset, or in IDLE a FLUSH, a ZEROIZE, or a DERIVE_SEAL that traps (R30). -/
def ClearsOverrun (s : State) (e : Event) (t : State) : Prop :=
  e = .reset ∨
    (s.ph = .idle ∧ (e = .hostWrite 2 4 ∨ e = .hostWrite 2 5 ∨ (e = .hostWrite 2 2 ∧ t.ph = .fault)))

/-- OVR is kept, set by a write dropped while busy, or cleared by one of the clearing events. -/
theorem Effect.ovr_cases {s t : State} {e : Event} (he : Effect s e t) :
    t.ovr = s.ovr ∨ (s.ph.busy = true ∧ e.isPushOrCommand = true ∧ t.ovr = true) ∨ ClearsOverrun s e t := by
  cases he with
  | dropped hw hb => exact .inr (.inl ⟨hb, by simpa [Event.isPushOrCommand] using hw, rfl⟩)
  | sealTrapped hp => exact .inr (.inr (.inr ⟨hp, .inr (.inr ⟨rfl, rfl⟩)⟩))
  | flushed hp => exact .inr (.inr (.inr ⟨hp, .inl rfl⟩))
  | zeroized hp => exact .inr (.inr (.inr ⟨hp, .inr (.inl rfl)⟩))
  | reset => exact .inr (.inr (.inl rfl))
  | _ => exact .inl rfl

/-- In IDLE a FLUSH, a ZEROIZE and a DERIVE_SEAL that traps meet no effect but their own. -/
theorem Effect.ovr_of_clears {s t : State} {e : Event} (he : Effect s e t) (hc : ClearsOverrun s e t) :
    t.ovr = false := by
  rcases hc with rfl | ⟨hp, hc⟩
  · rw [he.of_reset]
    rfl
  · cases he with
    | sealTrapped | flushed | zeroized => rfl
    | derivePending hv | deriveNoKey hv | deriveStarted hv => rcases hv with rfl | rfl <;> simp_all
    | dropped _ hb => rw [hp] at hb; cases hb
    | _ => simp_all

theorem Event.isPushOrCommand_iff {e : Event} :
    e.isPushOrCommand = true ↔ ∃ w v, (w = 2 ∨ w = 3) ∧ e = .hostWrite w v := by
  cases e <;> simp [Event.isPushOrCommand]

/-- A write of CMD or DIN while busy is dropped and sets OVR, whatever its word (R129). -/
theorem memWrite_busy {s : State} {w : Slot} (hw : w = 2 ∨ w = 3) (hb : s.ph.busy = true) (v : Word) :
    memWrite w v s = .next { s with ovr := true } := by
  obtain ⟨f, hf⟩ := memWrite_gated hw v
  rw [hf, hostGate_busy hb]

theorem step_busy_write {s : State} {e : Event} {rest : List Event} (ha : s.agenda = e :: rest)
    (hb : s.ph.busy = true) (he : e.isPushOrCommand = true) :
    ∃ x, step s = .next { s with agenda := rest, trace := x :: s.trace, ovr := true } := by
  obtain ⟨w, v, hw, rfl⟩ := Event.isPushOrCommand_iff.mp he
  rw [step_cons ha]
  exact ⟨_, memWrite_busy (s := (s.withAgenda rest).record (.hostWrite w v)) hw hb v⟩

/-- Settles O48: what the effects do to OVR, and what a write does while busy. -/
theorem overrunIsSticky : Obligations.OverrunIsSticky := by
  unfold Obligations.OverrunIsSticky
  intro s t e rest ha h
  have he := effect_of_step ha h
  refine ⟨fun hb hw => ?_, fun hs ht => ?_, fun hs => ⟨fun ht => ?_, he.ovr_of_clears⟩⟩
  · obtain ⟨x, hx⟩ := step_busy_write ha hb hw
    rw [← Host.Outcome.next.inj (hx.symm.trans h)]
  · rcases he.ovr_cases with hk | ⟨hb, hw, -⟩ | hc
    · simp_all
    · exact ⟨hb, hw⟩
    · simp [he.ovr_of_clears hc] at ht
  · rcases he.ovr_cases with hk | ⟨-, -, ht'⟩ | hc
    · simp_all
    · simp_all
    · exact hc

/-! ### The key -/

/-- K1 is written from the engine's answer: the contract's answer to the request it holds, or any bytes. -/
def AnswersWith (s : State) (e : Event) (r : Bytes 16) : Prop :=
  (e = .aesAnswer ∧ ∃ q, s.engine = some q ∧ r = Config.AESENC q.key q.block) ∨ e = .aesResp r

/-- The event ends the span of KV = 1: reset, or in IDLE an accepted LOADKEY, a ZEROIZE, or a DERIVE_SEAL
that traps (R44). -/
def EndsKey (s : State) (e : Event) (t : State) : Prop :=
  e = .reset ∨ (s.ph = .idle ∧ ((e = .hostWrite 2 1 ∧ t.ph = .initReq) ∨ e = .hostWrite 2 5 ∨
    (e = .hostWrite 2 2 ∧ t.ph = .fault)))

/-- The key is kept, completed by LOADKEY's answer, or ended. -/
theorem Effect.key_cases {s t : State} {e : Event} (he : Effect s e t) :
    (t.kv = s.kv ∧ t.masterKey = s.masterKey ∧ t.k1 = s.k1) ∨
    (s.ph = .initWait ∧ t.masterKey = s.masterKey ∧ ∃ r, AnswersWith s e r ∧ t.k1 = dbl r) ∨
    (t.kv = false ∧ EndsKey s e t) := by
  cases he with
  | keyStarted hp => exact .inr (.inr ⟨rfl, .inr ⟨hp, .inl ⟨rfl, rfl⟩⟩⟩)
  | sealTrapped hp => exact .inr (.inr ⟨rfl, .inr ⟨hp, .inr (.inr ⟨rfl, rfl⟩)⟩⟩)
  | zeroized hp => exact .inr (.inr ⟨rfl, .inr ⟨hp, .inr (.inl rfl)⟩⟩)
  | reset => exact .inr (.inr ⟨rfl, .inl rfl⟩)
  | initResp hp => exact .inr (.inl ⟨hp, rfl, _, .inr rfl, rfl⟩)
  | initAnswer hq hp => exact .inr (.inl ⟨hp, rfl, _, .inl ⟨rfl, _, hq, rfl⟩, rfl⟩)
  | _ => exact .inl ⟨rfl, rfl, rfl⟩

/-- Settles O47: what the effects do to the key, and that LOADKEY waits for its answer only while KV = 0 (V3). -/
theorem keyAndSubkeyAreFixedWhileKeyValid : Obligations.KeyAndSubkeyAreFixedWhileKeyValid := by
  unfold Obligations.KeyAndSubkeyAreFixedWhileKeyValid
  intro s t e rest hi ha h
  rcases (effect_of_step ha h).key_cases with ⟨hkv, hmk, hk1⟩ | ⟨hp, hmk, r, hr, hk1⟩ | ⟨hkv, hend⟩
  · exact ⟨fun _ _ => ⟨hmk, hk1⟩, by simp +contextual [hkv], by simp +contextual [hkv]⟩
  · have hs : s.kv = false := (hi.v3 (.inr hp)).1
    refine ⟨by simp [hs], fun _ _ => ⟨hp, hmk, ?_⟩, by simp [hs]⟩
    exact hr.imp And.left fun hr => ⟨r, hr, hk1⟩
  · exact ⟨by simp [hkv], by simp [hkv], fun _ _ => hend⟩

end Sys2Proof.Machine

/-! SUPPORT. The invariants of 10_state.md R41: one rule per class of phases that says what a state of that
class owes, the effect of every event by those rules, and the induction over reachable states. -/

namespace Sys2Proof.Machine

/-! ### What a state owes, by its phase -/

/-- V7: the bytes of IBUF behind the count are zero. -/
def TailZero (ibuf : Bytes 32) (ilen : BitVec 6) : Prop :=
  ∀ (i : Nat) (h : i < 32), min ilen.toNat 32 ≤ i → ibuf[i] = 0

theorem tailZero_zeros (n : BitVec 6) : TailZero (zeros 32) n := fun i h _ => by simp

/-- An idle state: nothing runs, so the key and the output are complete or empty. -/
theorem Inv.of_idle {s : State} (hp : s.ph = .idle) (he : s.engine = none) (hf : s.fcause = 0)
    (hr : s.err.toNat ≤ 5) (hb : TailZero s.ibuf s.ilen)
    (hk : s.kv = false → s.masterKey = zeros 32 ∧ s.k1 = zeros 16)
    (ho : s.dkv = true → s.kv = true)
    (hn : s.dkv = false → s.dk = zeros 32 ∧ s.nonce = zeros 24) : Inv s where
  v1 hd := ⟨hp, ho hd⟩
  v2 h := by simp [Deriving, hp] at h
  v3 h := by simp [LoadingKey, hp] at h
  v4 h := by simp [hp] at h
  v7 := hb
  v8 hd _ := hn hd
  v9 h _ := hk h
  v10 := by simp [hf, hp]
  errCode := hr
  causeCode := by simp [hf]
  held := by simp [awaitedRequest, hp, he]
  loadingOutput h := by simp [LoadingKey, hp] at h
  firstOutput h := by simp [hp] at h
  secondOutput h := by simp [hp] at h

/-- A state in which LOADKEY runs: no subkey yet, and no output. -/
theorem Inv.of_loading {s : State} (hp : LoadingKey s) (he : s.engine = awaitedRequest s) (hf : s.fcause = 0)
    (hr : s.err.toNat ≤ 5) (hb : TailZero s.ibuf s.ilen) (hk : s.kv = false) (hd : s.dkv = false)
    (hk1 : s.k1 = zeros 16) (hn : s.dk = zeros 32 ∧ s.nonce = zeros 24) : Inv s := by
  obtain ⟨hfault, hderiving⟩ : s.ph ≠ .fault ∧ ¬Deriving s := by
    rcases hp with hp | hp <;> simp [Deriving, hp]
  exact {
    v1 := fun h => by simp [hd] at h
    v2 := fun h => absurd h hderiving
    v3 := fun _ => ⟨hk, hd, hk1⟩
    v4 := fun h => absurd h hfault
    v7 := hb
    v8 := fun _ _ => hn
    v9 := fun _ h => absurd hp h
    v10 := by simp [hf, hfault]
    errCode := hr
    causeCode := by simp [hf]
    held := he
    loadingOutput := fun _ => hn
    firstOutput := fun _ => hn.1
    secondOutput := fun h => absurd (.inr (.inr h)) hderiving }

/-- A state in which a derivation runs: a key, no output yet, and DK filled half by half. -/
theorem Inv.of_deriving {s : State} (hp : Deriving s) (he : s.engine = awaitedRequest s) (hf : s.fcause = 0)
    (hr : s.err.toNat ≤ 5) (hb : TailZero s.ibuf s.ilen) (hk : s.kv = true) (hd : s.dkv = false)
    (h1 : s.ph = .drv1Req ∨ s.ph = .drv1Wait → s.dk = zeros 32)
    (h2 : s.ph = .drv2Req ∨ s.ph = .drv2Wait → slice s.dk 16 16 = zeros 16) : Inv s := by
  obtain ⟨hidle, hfault, hloading⟩ : s.ph ≠ .idle ∧ s.ph ≠ .fault ∧ ¬LoadingKey s := by
    rcases hp with hp | hp | hp | hp <;> simp [LoadingKey, hp]
  exact {
    v1 := fun h => by simp [hd] at h
    v2 := fun _ => ⟨hk, hd⟩
    v3 := fun h => absurd h hloading
    v4 := fun h => absurd h hfault
    v7 := hb
    v8 := fun _ h => absurd h hidle
    v9 := fun h _ => by simp [hk] at h
    v10 := by simp [hf, hfault]
    errCode := hr
    causeCode := by simp [hf]
    held := he
    loadingOutput := fun h => absurd h hloading
    firstOutput := h1
    secondOutput := h2 }

/-- FCAUSE is zero outside FAULT (V10). -/
theorem Inv.fcause_eq_zero {s : State} (h : Inv s) (hp : s.ph ≠ .fault) : s.fcause = 0 := by
  by_contra hf
  exact hp (h.v10.mp hf)

/-- Outside the waiting phases the engine holds nothing (R35). -/
theorem awaitedRequest_eq_none {s : State} (h1 : s.ph ≠ .initWait) (h2 : s.ph ≠ .drv1Wait)
    (h3 : s.ph ≠ .drv2Wait) : awaitedRequest s = none := by
  cases hp : s.ph <;> simp_all [awaitedRequest]

theorem Inv.engine_eq_none {s : State} (h : Inv s) (hp : s.ph = .idle) : s.engine = none := by
  rw [h.held, awaitedRequest_eq_none] <;> simp [hp]

/-! ### What no invariant reads -/

theorem Inv.withAgenda {s : State} (h : Inv s) (es : List Event) : Inv (s.withAgenda es) := { h with }

theorem Inv.record {s : State} (h : Inv s) (e : PortEvent) : Inv (s.record e) := { h with }

/-- OVR counts only in FAULT (V4). -/
theorem Inv.setOvr {s : State} (h : Inv s) (hb : s.ph.busy = true) : Inv { s with ovr := true } :=
  { h with v4 := fun hf => by rw [show s.ph = .fault from hf] at hb; cases hb }

/-! ### The host operations, examined in IDLE -/

theorem toNat_countedPush (s : State) : (countedPush s).toNat = min (s.ilen.toNat + 1) 63 := by
  unfold countedPush
  split_ifs <;> bv_omega

theorem getElem_storedByte (s : State) (b : Byte) (i : Nat) (hi : i < 32) :
    (storedByte s b)[i] = if i = s.ilen.toNat then b else s.ibuf[i] := by
  by_cases hroom : s.ilen.toNat < Config.ibufBytes
  · simp [storedByte, hroom, Vector.getElem_set, eq_comm]
  · have hne : i ≠ s.ilen.toNat := fun heq => hroom (heq ▸ hi)
    simp [storedByte, hroom, hne]

section Examined

variable {s : State} (h : Inv s) (hp : s.ph = .idle)
include h hp

/-- The bytes behind the new count are behind the old one, and none of them is the byte stored to. -/
theorem Inv.pushExamined (b : Byte) : Inv (pushExamined b s) :=
  { h with
    v4 := fun hf => nomatch hp.symm.trans hf
    v7 := fun i hi hle => by
      simp only [pushExamined_ilen, toNat_countedPush] at hle
      rw [pushExamined_ibuf, getElem_storedByte, if_neg (by omega)]
      exact h.v7 i hi (by omega) }

theorem Inv.consume : Inv s.consume :=
  { h with
    v4 := fun hf => nomatch hp.symm.trans hf
    v7 := tailZero_zeros 0 }

theorem Inv.raiseError {c : BitVec 4} (hc : c.toNat ≤ 5) : Inv (s.raiseError c) :=
  { h with
    v4 := fun hf => nomatch hp.symm.trans hf
    errCode := hc }

theorem Inv.raiseTrap : Inv (s.raiseTrap 1) where
  v1 hd := by cases hd
  v2 hd := by simp [Deriving] at hd
  v3 hl := by simp [LoadingKey] at hl
  v4 _ := ⟨rfl, rfl, rfl, rfl, rfl, rfl, rfl, rfl, rfl, rfl, show (1 : BitVec 4) ≠ 0 by decide⟩
  v7 := tailZero_zeros 0
  v8 _ _ := ⟨rfl, rfl⟩
  v9 _ _ := ⟨rfl, rfl⟩
  v10 := by simp
  errCode := by simp
  causeCode := by simp
  held := h.engine_eq_none hp
  loadingOutput _ := ⟨rfl, rfl⟩
  firstOutput _ := rfl
  secondOutput hd := by simp at hd

theorem Inv.keyStarted (hd : s.dkv = false) :
    Inv { s.consume with masterKey := s.ibuf, k1 := zeros 16, kv := false, err := 0, ph := .initReq } :=
  .of_loading (.inl rfl) (h.engine_eq_none hp) (h.fcause_eq_zero (by simp [hp])) (by simp) (tailZero_zeros 0)
    rfl hd rfl (h.v8 hd hp)

theorem Inv.deriveStarted (hd : s.dkv = false) (hk : s.kv = true) (N : Bytes 24) :
    Inv { s.consume with nonce := N, err := 0, ph := .drv1Req } :=
  .of_deriving (.inl rfl) (h.engine_eq_none hp) (h.fcause_eq_zero (by simp [hp])) (by simp) (tailZero_zeros 0)
    hk hd (fun _ => (h.v8 hd hp).1) (by simp)

theorem Inv.flushed : Inv s.consume.dropCall :=
  .of_idle hp (h.engine_eq_none hp) (h.fcause_eq_zero (by simp [hp])) (by simp) (tailZero_zeros 0)
    (fun hk => h.v9 hk (by simp [LoadingKey, hp])) (by simp) (by simp)

theorem Inv.zeroized :
    Inv { s.consume.dropCall with masterKey := zeros 32, k1 := zeros 16, kv := false } :=
  .of_idle hp (h.engine_eq_none hp) (h.fcause_eq_zero (by simp [hp])) (by simp) (tailZero_zeros 0)
    (by simp) (by simp) (by simp)

end Examined

/-! ### The sequencer, the consumer and reset -/

theorem slice_zeros : slice (zeros 32) 16 16 = zeros 16 := by
  apply Vector.ext
  intro i hi
  simp

section Steps

variable {s : State} (h : Inv s)
include h

theorem Inv.acceptInit (hp : s.ph = .initReq) : Inv (acceptRequest zeroBlock .initWait s) := by
  obtain ⟨hk, hd, hk1⟩ := h.v3 (.inl hp)
  exact .of_loading (.inr rfl) rfl (h.fcause_eq_zero (by simp [hp])) h.errCode h.v7 hk hd hk1
    (h.loadingOutput (.inl hp))

theorem Inv.acceptFirst (hp : s.ph = .drv1Req) :
    Inv (acceptRequest (requestX .first s) .drv1Wait s) := by
  obtain ⟨hk, hd⟩ := h.v2 (.inl hp)
  exact .of_deriving (.inr (.inl rfl)) rfl (h.fcause_eq_zero (by simp [hp])) h.errCode h.v7 hk hd
    (fun _ => h.firstOutput (.inl hp)) (by simp)

theorem Inv.acceptSecond (hp : s.ph = .drv2Req) :
    Inv (acceptRequest (requestX .second s) .drv2Wait s) := by
  obtain ⟨hk, hd⟩ := h.v2 (.inr (.inr (.inl hp)))
  exact .of_deriving (.inr (.inr (.inr rfl))) rfl (h.fcause_eq_zero (by simp [hp])) h.errCode h.v7 hk hd
    (by simp) (fun _ => h.secondOutput (.inl hp))

theorem Inv.initResp (hp : s.ph = .initWait) (r : Bytes 16) : Inv (seqInitResp r (afterAnswer r s)) :=
  .of_idle rfl rfl (h.fcause_eq_zero (by simp [hp])) h.errCode h.v7 (by simp) (fun _ => rfl)
    fun _ => h.loadingOutput (.inr hp)

theorem Inv.drv1Resp (hp : s.ph = .drv1Wait) (r : Bytes 16) : Inv (seqDrv1Resp r (afterAnswer r s)) := by
  obtain ⟨hk, hd⟩ := h.v2 (.inr (.inl hp))
  have hhigh : slice (withLowHalf s.dk r) 16 16 = zeros 16 := by
    rw [slice_withLowHalf, h.firstOutput (.inr hp), slice_zeros]
  exact .of_deriving (.inr (.inr (.inl rfl))) rfl (h.fcause_eq_zero (by simp [hp])) h.errCode h.v7 hk hd
    (by simp) fun _ => hhigh

theorem Inv.drv2Resp (hp : s.ph = .drv2Wait) (r : Bytes 16) : Inv (seqDrv2Resp r (afterAnswer r s)) := by
  obtain ⟨hk, -⟩ := h.v2 (.inr (.inr (.inr hp)))
  exact .of_idle rfl rfl (h.fcause_eq_zero (by simp [hp])) h.errCode h.v7 (by simp [hk]) (fun _ => hk) (by simp)

theorem Inv.afterAnswer (h1 : s.ph ≠ .initWait) (h2 : s.ph ≠ .drv1Wait) (h3 : s.ph ≠ .drv2Wait)
    (r : Bytes 16) : Inv (afterAnswer r s) :=
  { h with held := (awaitedRequest_eq_none h1 h2 h3).symm }

theorem Inv.delivered (hd : s.dkv = true) (e : PortEvent) :
    Inv { s.record e with dk := zeros 32, nonce := zeros 24, dkv := false } := by
  obtain ⟨hp, -⟩ := h.v1 hd
  exact .of_idle hp (h.engine_eq_none hp) (h.fcause_eq_zero (by simp [hp])) h.errCode h.v7
    (fun hk => h.v9 hk (by simp [LoadingKey, hp])) (by simp) (by simp)

end Steps

theorem inv_applyReset (s : State) : Inv s.applyReset :=
  .of_idle rfl rfl rfl (by simp) (tailZero_zeros 0) (by simp) (by simp) (by simp)

/-- Every event keeps the invariants. -/
theorem Effect.inv {s t : State} {e : Event} (he : Effect s e t) (h : Inv s) : Inv t := by
  cases he with
  | otherSlot | ignored | read => exact h.record _
  | dropped _ hb => exact (h.record _).setOvr hb
  | pushed hp => exact (h.record _).pushExamined hp _
  | keyPending hp | keyLength hp | derivePending _ hp | deriveNoKey _ hp | openLength hp =>
    exact ((h.record _).consume hp).raiseError hp (by decide)
  | keyStarted hp hd => exact (h.record _).keyStarted hp hd
  | sealTrapped hp => exact (h.record _).raiseTrap hp
  | deriveStarted _ hp hd hk => exact (h.record _).deriveStarted hp hd hk _
  | flushed hp => exact (h.record _).flushed hp
  | zeroized hp => exact (h.record _).zeroized hp
  | illegal _ hp => exact (h.record _).raiseError hp (by decide)
  | initReq hp => exact h.acceptInit hp
  | drv1Req hp => exact h.acceptFirst hp
  | drv2Req hp => exact h.acceptSecond hp
  | initResp hp | initAnswer _ hp => exact h.initResp hp _
  | drv1Resp hp | drv1Answer _ hp => exact h.drv1Resp hp _
  | drv2Resp hp | drv2Answer _ hp => exact h.drv2Resp hp _
  | unawaited h1 h2 h3 | unawaitedAnswer _ h1 h2 h3 => exact h.afterAnswer h1 h2 h3 _
  | delivered hd => exact h.delivered hd _
  | noRequest | noRequestHeld | notOffered => exact h
  | reset => exact (inv_applyReset s).record _

/-! ### Reachable states -/

theorem step_inv {s t : State} (h : Inv s) (hstep : step s = .next t) : Inv t := by
  rcases step_cases hstep with ⟨-, -, rfl⟩ | ⟨e, rest, -, he⟩
  · exact h
  · exact he.inv (h.withAgenda rest)

theorem inv_reset (es : List Event) : Inv (State.reset.withAgenda es) :=
  inv_applyReset (State.reset.withAgenda es)

theorem ReachableBy.inv {allowed : State → Prop} {s : State} (h : ReachableBy allowed s) : Inv s := by
  induction h with
  | start es => exact inv_reset es
  | step _ _ hstep ih => exact step_inv ih hstep

/-- LOADKEY's answer, if the engine keeps its contract, is the one that K1 is the subkey by: the request held
in phase 2 is that of MK and the zero block. -/
theorem answer_eq_of_contract {s : State} {e : Event} {rest : List Event} {r : Bytes 16} (h : Inv s)
    (hp : s.ph = .initWait) (hc : KeepsContract s) (ha : s.agenda = e :: rest) (hr : AnswersWith s e r) :
    r = Config.AESENC s.masterKey zeroBlock := by
  have hheld : s.engine = some ⟨s.masterKey, zeroBlock⟩ := by rw [h.held, awaitedRequest, hp]
  obtain ⟨q, hq, rfl⟩ : ∃ q, s.engine = some q ∧ r = Config.AESENC q.key q.block := by
    rcases hr with ⟨-, hq⟩ | rfl
    · exact hq
    · exact hc r rest ha
  obtain rfl : q = ⟨s.masterKey, zeroBlock⟩ := Option.some.inj (hq.symm.trans hheld)
  rfl

theorem step_keyMatches {s t : State} (h : Inv s) (hm : KeyMatches s) (hc : KeepsContract s)
    (hstep : step s = .next t) : KeyMatches t := by
  rcases step_cases hstep with ⟨-, -, rfl⟩ | ⟨e, rest, ha, he⟩
  · exact hm
  · intro ht
    rcases he.key_cases with ⟨hkv, hmk, hk1⟩ | ⟨hp, hmk, r, hr, hk1⟩ | ⟨hkv, -⟩
    · rw [hk1, hmk]
      exact hm (hkv.symm.trans ht)
    · rw [hk1, hmk, answer_eq_of_contract h hp hc ha hr]
      rfl
    · simp [hkv] at ht

theorem ContractReachable.keyMatches {s : State} (h : ContractReachable s) : KeyMatches s := by
  induction h with
  | start es => exact fun hk => by cases hk
  | step hs hc hstep ih => exact step_keyMatches hs.inv ih hc hstep

/-- V6: while the block is busy no write changes anything but OVR, and none clears it. -/
theorem memWrite_of_busy {s : State} (hb : s.ph.busy = true) (w : Slot) (v : Word) :
    ∃ t, memWrite w v s = .next t ∧ t = { s with ovr := t.ovr } ∧ (s.ovr = true → t.ovr = true) := by
  by_cases hw : w = 2 ∨ w = 3
  · exact ⟨_, memWrite_busy hw hb v, rfl, fun _ => rfl⟩
  · obtain ⟨h2, h3⟩ := not_or.mp hw
    exact ⟨s, memWrite_otherSlot h2 h3 v s, rfl, id⟩

/-- Settles O46: the invariants hold after reset and every event keeps them; V5 by the engine contract. -/
theorem everyReachableStateMeetsTheInvariants : Obligations.EveryReachableStateMeetsTheInvariants := by
  unfold Obligations.EveryReachableStateMeetsTheInvariants
  refine ⟨fun s hs => ?_, fun s hs => hs.keyMatches⟩
  have h : Inv s := hs.inv
  exact ⟨h.v1, h.v2, h.v3, h.v4, memWrite_of_busy, h.v7, by omega, h.v8, h.v9, h.v10⟩

end Sys2Proof.Machine

/-! SUPPORT. The register map that the host reads and writes (20_memory.md R52, R53), and what ports A and G
show (R60, R61, R64). -/

namespace Sys2Proof.Machine

/-! ### Host reads -/

theorem memRead_id (s : State) : memRead 0 s = idWord := rfl

theorem memRead_ilen (s : State) : memRead 4 s = s.ilen.setWidth 32 := rfl

theorem memRead_otherSlot {w : Slot} (h0 : w ≠ 0) (h1 : w ≠ 1) (h4 : w ≠ 4) (s : State) :
    memRead w s = 0 := by
  unfold memRead
  rw [if_neg h0, if_neg h1, if_neg h4]

/-- STATUS and ILEN are read from the block, so taking the read from the agenda does not change its answer. -/
theorem step_hostRead {s : State} {w : Slot} {rest : List Event} (h : s.agenda = .hostRead w :: rest) :
    step s = .next ((s.withAgenda rest).record (.hostRead w (memRead w s))) := step_cons h

/-- Settles O11: the read's answer is `memRead`, slot by slot, and the step only records it. -/
theorem hostReadsReturnTheRegisterMap : Obligations.HostReadsReturnTheRegisterMap := by
  unfold Obligations.HostReadsReturnTheRegisterMap
  intro s w rest h
  refine ⟨memRead w s, step_hostRead h, ?_, ?_, ?_, fun h0 h1 h4 => memRead_otherSlot h0 h1 h4 s⟩
  · rintro rfl
    exact memRead_id s
  · rintro rfl
    exact memRead_status s
  · rintro rfl
    exact memRead_ilen s

/-! ### Host writes -/

theorem memWrite_of_decode_ok {w : Slot} {v : Word} {i : Instr} (h : decode w v = .ok i) (s : State) :
    memWrite w v s = exec i s := by
  simp only [memWrite, h]

theorem memWrite_of_illegalCommand {w : Slot} {v : Word} (h : decode w v = .error .illegalCommand)
    (s : State) : memWrite w v s = execIllegalCommand s := by
  simp only [memWrite, h]

/-- A CMD word is rejected for one reason only (R85). -/
theorem decode_slotCmd_eq_illegalCommand {v : Word} (h : ∀ i, decode 2 v ≠ .ok i) :
    decode 2 v = .error .illegalCommand := by
  rcases decodeCmd_cases v with ⟨-, hd⟩ | ⟨-, hd⟩ | ⟨-, hd⟩ | ⟨-, hd⟩ | ⟨-, hd⟩ | ⟨-, -, -, -, -, hd⟩
  iterate 5 exact absurd hd (h _)
  exact hd

/-- Settles O12: a write is what the decoder answers for its slot and word. -/
theorem hostWritesBySlot : Obligations.HostWritesBySlot := by
  unfold Obligations.HostWritesBySlot
  exact fun s v =>
    ⟨fun _ h => memWrite_of_decode_ok h s,
      fun h => memWrite_of_illegalCommand (decode_slotCmd_eq_illegalCommand h) s,
      memWrite_of_decode_ok (decode_slotDin v) s,
      fun _ h2 h3 => memWrite_otherSlot h2 h3 v s⟩

/-! ### Port A -/

theorem aReqValid_iff (s : State) :
    aReqValid s = true ↔ s.ph = .initReq ∨ s.ph = .drv1Req ∨ s.ph = .drv2Req := by
  unfold aReqValid
  cases s.ph <;> simp

theorem Phase.code_injective : Function.Injective Phase.code := by
  intro p q
  cases p <;> cases q <;> decide

theorem aKey_of_valid {s : State} (h : aReqValid s = true) : aKey s = bus s.masterKey := if_pos h

theorem aBlock_initReq {s : State} (h : s.ph = .initReq) : aBlock s = bus zeroBlock := by
  simp only [aBlock, h]

theorem aBlock_drv1Req {s : State} (h : s.ph = .drv1Req) : aBlock s = bus (requestX .first s) := by
  simp only [aBlock, h]

theorem aBlock_drv2Req {s : State} (h : s.ph = .drv2Req) : aBlock s = bus (requestX .second s) := by
  simp only [aBlock, h]

/-- Settles O28: the codes 1, 3 and 5 are the three request phases, each with its block. -/
theorem portAShowsTheRequestOnly : Obligations.PortAShowsTheRequestOnly := by
  unfold Obligations.PortAShowsTheRequestOnly
  intro s
  have h1 : s.ph.code = 1 ↔ s.ph = .initReq := Phase.code_injective.eq_iff' rfl
  have h3 : s.ph.code = 3 ↔ s.ph = .drv1Req := Phase.code_injective.eq_iff' rfl
  have h5 : s.ph.code = 5 ↔ s.ph = .drv2Req := Phase.code_injective.eq_iff' rfl
  rw [h1, h3, h5]
  exact ⟨aReqValid_iff s, aKey_of_valid, aBlock_initReq, aBlock_drv1Req, aBlock_drv2Req, portA_zero⟩

/-! ### Port G -/

theorem gKey_of_dkv {s : State} (h : s.dkv = true) : gKey s = bus s.dk := if_pos h

theorem gNonce_of_dkv {s : State} (h : s.dkv = true) : gNonce s = bus (nonceN2 s.nonce) := if_pos h

theorem getElem_nonceN2 (N : Bytes 24) (i : Nat) (hi : i < 12) : (nonceN2 N)[i] = N[12 + i] :=
  getElem_slice N 12 12 _ i hi

/-- Settles O29: each byte of DK and of N2 stands at its place on the bus, and the bus is zero while DKV = 0. -/
theorem portGShowsACompleteKeyOnly : Obligations.PortGShowsACompleteKeyOnly := by
  unfold Obligations.PortGShowsACompleteKeyOnly
  refine fun s => ⟨rfl, fun hd => ⟨fun i hi => ?_, fun i hi => ?_⟩, portG_zero⟩
  · rw [gKey_of_dkv hd]
    exact extractLsb'_bus s.dk i hi
  · rw [gNonce_of_dkv hd, ← getElem_nonceN2]
    exact extractLsb'_bus (nonceN2 s.nonce) i hi

end Sys2Proof.Machine

/-! SUPPORT. The decoder, the encoder and the rows of the opcode table agree (30_encoding.md R80 to R86), and
the effect of a word that is no instruction (R128). -/

namespace Sys2Proof.Machine

/-! ### The decoder and the encoder -/

/-- The two fields of a CMD word, RSV and OPC, make up its value (R81). -/
theorem toNat_eq_rsv_opc (v : Word) :
    v.toNat = 256 * (v.extractLsb' 8 24).toNat + (v.extractLsb' 0 8).toNat := by
  simp only [BitVec.extractLsb'_toNat, Nat.shiftRight_eq_div_pow]
  omega

/-- The decoder of CMD words as R86 writes it out. -/
theorem decodeCmd_eq_ite (v : Word) : decodeCmd v =
    if v.extractLsb' 8 24 ≠ 0 then .error .illegalCommand
    else if v.extractLsb' 0 8 = 1 then .ok .loadkey
    else if v.extractLsb' 0 8 = 2 then .ok .deriveSeal
    else if v.extractLsb' 0 8 = 3 then .ok .deriveOpen
    else if v.extractLsb' 0 8 = 4 then .ok .flush
    else if v.extractLsb' 0 8 = 5 then .ok .zeroize
    else .error .illegalCommand := by
  unfold decodeCmd
  split
  · rfl
  · split <;> simp_all

theorem decode_encode (i : Instr) : decode (encode i).1 (encode i).2 = .ok i := by
  cases i with
  | push b =>
    have hlow : (b.setWidth 32).extractLsb' 0 8 = b := by
      apply BitVec.eq_of_toNat_eq
      simp only [BitVec.extractLsb'_toNat, BitVec.toNat_setWidth, Nat.shiftRight_zero]
      omega
    exact congrArg (fun c => Except.ok (Instr.push c)) hlow
  | _ => decide

/-- Everything a word that decodes can be: the one word of a command, or any word of slot 3. -/
theorem decode_ok_cases {w : Slot} {v : Word} {i : Instr} (h : decode w v = .ok i) :
    (i.row.slot = 2 ∧ encode i = (w, v)) ∨ (w = 3 ∧ i = .push (v.extractLsb' 0 8)) := by
  by_cases h2 : w = 2
  · subst h2
    rcases decodeCmd_cases v with ⟨rfl, hd⟩ | ⟨rfl, hd⟩ | ⟨rfl, hd⟩ | ⟨rfl, hd⟩ | ⟨rfl, hd⟩ |
      ⟨-, -, -, -, -, hd⟩
    all_goals cases hd.symm.trans h
    all_goals exact .inl ⟨rfl, rfl⟩
  · by_cases h3 : w = 3
    · subst h3
      cases h
      exact .inr ⟨rfl, rfl⟩
    · cases (decode_otherSlot h2 h3 v).symm.trans h

/-! ### The rows of the opcode table -/

theorem slot_row_push_ne (b : Byte) : (Instr.push b).row.slot ≠ 2 := (by decide : (3 : Slot) ≠ 2)

theorem accepts_iff (r : TableRow) (w : Slot) (v : Word) :
    r.accepts w v = true ↔ w = r.slot ∧ v &&& r.mask = r.pattern := by
  simp only [TableRow.accepts, Bool.and_eq_true, decide_eq_true_eq]

/-- A command's mask keeps the whole word, so its row takes the encoded word and no other. -/
theorem accepts_command_iff {i : Instr} (hi : i.row.slot = 2) (w : Slot) (v : Word) :
    i.row.accepts w v = true ↔ encode i = (w, v) := by
  have hmask : v &&& 0xFFFFFFFF = v := BitVec.and_allOnes
  rw [accepts_iff, Prod.ext_iff]
  cases i with
  | push b => exact absurd hi (slot_row_push_ne b)
  | _ => simp only [Instr.row, encode, hmask, eq_comm]

/-- PUSH's mask keeps nothing, so its row takes every word of its slot. -/
theorem accepts_push_iff (b : Byte) (w : Slot) (v : Word) :
    (Instr.push b).row.accepts w v = true ↔ w = 3 := by
  rw [accepts_iff]
  exact and_iff_left BitVec.and_zero

/-- A word decodes to an instruction exactly when that instruction's row takes it (R86). -/
theorem decode_eq_ok_iff (w : Slot) (v : Word) (i : Instr) : decode w v = .ok i ↔
    i.row.accepts w v = true ∧ ∀ b, i = .push b → b = v.extractLsb' 0 8 := by
  constructor
  · intro h
    rcases decode_ok_cases h with ⟨hi, he⟩ | ⟨rfl, rfl⟩
    · refine ⟨(accepts_command_iff hi w v).mpr he, ?_⟩
      rintro b rfl
      exact absurd hi (slot_row_push_ne b)
    · exact ⟨(accepts_push_iff _ 3 v).mpr rfl, fun b hb => (Instr.push.inj hb).symm⟩
  · rintro ⟨ha, hlow⟩
    by_cases hi : i.row.slot = 2
    · have hd := decode_encode i
      rwa [(accepts_command_iff hi w v).mp ha] at hd
    · cases i with
      | push b =>
        rw [(accepts_push_iff b w v).mp ha, hlow b rfl]
        exact decode_slotDin v
      | _ => exact absurd rfl hi

/-- No pushed byte is left open in slot 2, so the row alone decides. -/
theorem decode_slotCmd_eq_ok_iff (v : Word) (i : Instr) :
    decode 2 v = .ok i ↔ i.row.accepts 2 v = true := by
  rw [decode_eq_ok_iff, and_iff_left_iff_imp]
  rintro h b rfl
  exact absurd ((accepts_push_iff b 2 v).mp h) (by decide)

theorem decode_slotCmd_eq_error_iff (v : Word) :
    decode 2 v = .error .illegalCommand ↔ ∀ i : Instr, i.row.accepts 2 v = false := by
  simp only [← Bool.not_eq_true, ← decode_slotCmd_eq_ok_iff]
  refine ⟨fun h i hi => ?_, decode_slotCmd_eq_illegalCommand⟩
  cases h.symm.trans hi

/-- Settles O1: the decoder as R86 writes it out, and the rows that take exactly the words it decodes. -/
theorem decoderReadsExactlyTheTable : Obligations.DecoderReadsExactlyTheTable := by
  unfold Obligations.DecoderReadsExactlyTheTable
  refine ⟨decodeCmd_eq_ite, fun i => ?_, decode_eq_ok_iff, decode_slotCmd_eq_error_iff⟩
  cases i <;> rfl

/-! ### Legal and illegal words -/

theorem isLegal_cmd_iff (v : Word) : (∃ i, decode 2 v = .ok i) ↔ 1 ≤ v.toNat ∧ v.toNat ≤ 5 := by
  rcases decodeCmd_cases v with ⟨rfl, hd⟩ | ⟨rfl, hd⟩ | ⟨rfl, hd⟩ | ⟨rfl, hd⟩ | ⟨rfl, hd⟩ |
    ⟨h1, h2, h3, h4, h5, hd⟩
  iterate 5 exact iff_of_true ⟨_, hd⟩ (by decide)
  refine iff_of_false (fun ⟨i, hi⟩ => ?_) (by bv_omega)
  cases hd.symm.trans hi

theorem memWrite_din_congr {v v' : Word} (h : v.extractLsb' 0 8 = v'.extractLsb' 0 8) (s : State) :
    memWrite 3 v s = memWrite 3 v' s := by
  have hd : decodeDin v = decodeDin v' := congrArg Instr.push h
  rw [memWrite_of_decode_ok (decode_slotDin v), memWrite_of_decode_ok (decode_slotDin v'), hd]

/-- Settles O2: the legal CMD words are 1 to 5, read field by field; a DIN word is the push of its low byte. -/
theorem legalWordsOfBothFormats : Obligations.LegalWordsOfBothFormats := by
  unfold Obligations.LegalWordsOfBothFormats
  refine ⟨fun v => ?_, decode_slotDin, fun v v' s h => memWrite_din_congr h s⟩
  have hv := toNat_eq_rsv_opc v
  have hopc : (v.extractLsb' 0 8).toNat < 256 := (v.extractLsb' 0 8).isLt
  have hrsv : v.extractLsb' 8 24 = 0 ↔ (v.extractLsb' 8 24).toNat = 0 := BitVec.toNat_eq
  rw [isLegal_cmd_iff, hrsv]
  omega

/-- The effect of an illegal CMD word does not depend on the word (R85). -/
theorem memWrite_illegal {v : Word} (h1 : v ≠ 1) (h2 : v ≠ 2) (h3 : v ≠ 3) (h4 : v ≠ 4) (h5 : v ≠ 5)
    (s : State) : memWrite 2 v s = .next (hostGate (State.raiseError 3) s) := by
  rcases memWrite_cmd_cases v with ⟨hv, -⟩ | ⟨hv, -⟩ | ⟨hv, -⟩ | ⟨hv, -⟩ | ⟨hv, -⟩ | ⟨-, h⟩
  iterate 5 contradiction
  exact h s

/-- Settles O5: an illegal word raises ILLEGAL_COMMAND behind the gate by phase that every CMD write passes. -/
theorem illegalWordsAllBehaveTheSame : Obligations.IllegalWordsAllBehaveTheSame := by
  unfold Obligations.IllegalWordsAllBehaveTheSame
  intro v s h1 h2 h3 h4 h5
  rw [memWrite_illegal h1 h2 h3 h4 h5]
  refine ⟨fun hp => ?_, fun hb => ?_, fun hf => ?_⟩
  · rw [hostGate_idle hp]
    rfl
  · rw [hostGate_busy hb]
  · rw [hostGate_fault hf]

end Sys2Proof.Machine

/-! SUPPORT. The doubler read bit by bit on the bus, the XOR of byte strings, and the bytes of the KDF input
blocks (40_doubler_and_blocks.md R101 to R108). -/

namespace Sys2Proof.Machine

/-! ### Bits of the bus -/

theorem getLsbD_bus {n : Nat} (B : Bytes n) (i : Nat) (hi : i < n) (j : Nat) (hj : j < 8) :
    (bus B).getLsbD (8 * (n - 1 - i) + j) = B[i].getLsbD j := by
  rw [← extractLsb'_bus B i hi, BitVec.getLsbD_extractLsb']
  simp [hj]

/-- Shifting the whole bus left by one shifts each byte and brings in the top bit of the byte after it. -/
theorem extractLsb'_bus_shiftLeft_one {n : Nat} (B : Bytes n) (i : Nat) (hi : i < n) :
    (bus B <<< 1).extractLsb' (8 * (n - 1 - i)) 8 =
      (B[i] <<< 1) ||| (if h : i + 1 < n then B[i + 1] >>> 7 else 0) := by
  apply BitVec.eq_of_getLsbD_eq
  intro j hj
  rw [BitVec.getLsbD_extractLsb', BitVec.getLsbD_or, BitVec.getLsbD_shiftLeft, BitVec.getLsbD_shiftLeft]
  cases j with
  | zero =>
    by_cases h : i + 1 < n
    · have hpos : 8 * (n - 1 - i) + 0 - 1 = 8 * (n - 1 - (i + 1)) + 7 := by omega
      have htop : ¬ 8 * (n - 1 - i) < 1 := by omega
      have hlt : 8 * (n - 1 - i) < 8 * n := by omega
      rw [hpos, getLsbD_bus B (i + 1) h 7 (by decide)]
      simp [h, htop, hlt]
    · have hlast : n - 1 - i = 0 := by omega
      simp [h, hlast]
  | succ k =>
    have hpos : 8 * (n - 1 - i) + (k + 1) - 1 = 8 * (n - 1 - i) + k := by omega
    have hlt : 8 * (n - 1 - i) + (k + 1) < 8 * n := by omega
    have hnext : (if h : i + 1 < n then B[i + 1] >>> 7 else 0).getLsbD (k + 1) = false := by
      split
      · rw [BitVec.getLsbD_ushiftRight]
        exact BitVec.getLsbD_of_ge _ _ (by omega)
      · exact BitVec.getLsbD_zero
    rw [hpos, getLsbD_bus B i hi k (by omega), hnext]
    simp [hj, hlt]

/-! ### The doubler -/

theorem bus_dbl (L : Bytes 16) :
    bus (dbl L) = (bus L <<< 1) ^^^ (if (bus L).getLsbD 127 then reduction else 0) := by
  unfold dbl
  exact bus_ofBus (n := 16) _

/-- Settles O35: a bus value shifted left by one is its integer doubled modulo `2 ^ 128`. -/
theorem doublerOnIntegers : Obligations.DoublerOnIntegers := by
  unfold Obligations.DoublerOnIntegers
  intro L
  have hred : (if (bus L).getLsbD 127 then reduction else 0).toNat =
      if (byteInt L).testBit 127 then 0x87 else 0 := by
    rw [BitVec.getLsbD, toNat_bus]
    split <;> rfl
  rw [← toNat_bus (dbl L), bus_dbl, BitVec.toNat_xor, hred, BitVec.toNat_shiftLeft, toNat_bus,
    Nat.shiftLeft_eq, pow_one, mul_comm]

theorem getLsbD_127_bus (L : Bytes 16) : (bus L).getLsbD 127 = L[0].getLsbD 7 :=
  getLsbD_bus L 0 (by decide) 7 (by decide)

/-- The reduction constant lies in the last byte of the bus alone. -/
theorem extractLsb'_reduction_of_lt {i : Nat} (hi : i < 15) :
    reduction.extractLsb' (8 * (16 - 1 - i)) 8 = 0 := by
  apply BitVec.eq_of_toNat_eq
  have hsmall : (0x87 : Nat) < 2 ^ (8 * (16 - 1 - i)) :=
    calc (0x87 : Nat) < 2 ^ 8 := by decide
      _ ≤ 2 ^ (8 * (16 - 1 - i)) := Nat.pow_le_pow_right (by decide) (by omega)
  rw [BitVec.extractLsb'_toNat, Nat.shiftRight_eq_div_pow]
  exact congrArg (· % 2 ^ 8) (Nat.div_eq_of_lt hsmall)

/-- Byte `i` of the double: the shifted byte, XOR byte `i` of the reduction. -/
theorem getElem_dbl (L : Bytes 16) (i : Nat) (hi : i < 16) :
    (dbl L)[i] = ((L[i] <<< 1) ||| (if h : i + 1 < 16 then L[i + 1] >>> 7 else 0)) ^^^
      (if L[0].getLsbD 7 then reduction.extractLsb' (8 * (16 - 1 - i)) 8 else 0) := by
  have hred : (if L[0].getLsbD 7 then reduction else 0).extractLsb' (8 * (16 - 1 - i)) 8 =
      if L[0].getLsbD 7 then reduction.extractLsb' (8 * (16 - 1 - i)) 8 else 0 := by
    split
    · rfl
    · exact BitVec.extractLsb'_zero
  rw [← extractLsb'_bus (dbl L) i hi, bus_dbl, getLsbD_127_bus, BitVec.extractLsb'_xor,
    extractLsb'_bus_shiftLeft_one L i hi, hred]

theorem getElem_dbl_of_lt (L : Bytes 16) (i : Nat) (hi : i < 15) :
    (dbl L)[i] = (L[i] <<< 1) ||| (L[i + 1] >>> 7) := by
  rw [getElem_dbl L i (by omega), extractLsb'_reduction_of_lt hi, dif_pos (by omega), ite_self]
  exact BitVec.xor_zero

theorem getElem_dbl_last (L : Bytes 16) :
    (dbl L)[15] = (L[15] <<< 1) ^^^ (if L[0].getLsbD 7 then 0x87 else 0x00) := by
  rw [getElem_dbl L 15 (by decide), dif_neg (by decide)]
  exact congrArg (· ^^^ _) BitVec.or_zero

theorem dblBytes_eq_dbl (L : Bytes 16) : dblBytes L = dbl L := by
  apply Vector.ext
  intro i hi
  rw [dblBytes, Vector.getElem_ofFn]
  by_cases h : i < 15
  · rw [dif_pos h, getElem_dbl_of_lt L i h]
  · obtain rfl : i = 15 := by omega
    rw [dif_neg h, getElem_dbl_last]

theorem ushiftRight_seven_eq_one_iff (b : Byte) : b >>> 7 = 1 ↔ b.getLsbD 7 = true := by
  revert b
  decide

/-- Settles O36: each byte of the double, read off the shifted bus, is what the byte form computes. -/
theorem doublerOnBytes : Obligations.DoublerOnBytes := by
  unfold Obligations.DoublerOnBytes
  intro L
  simp only [ushiftRight_seven_eq_one_iff]
  exact ⟨getElem_dbl_of_lt L, getElem_dbl_last L, dblBytes_eq_dbl L⟩

/-! ### The XOR and the KDF input blocks -/

@[simp] theorem xor16_zeros (A : Bytes 16) : xor16 A (zeros 16) = A := by
  apply Vector.ext
  intro i hi
  simp

@[simp] theorem xor16_self (A : Bytes 16) : xor16 A A = zeros 16 := by
  apply Vector.ext
  intro i hi
  simp

/-- A common operand cancels in the XOR of two XORs. -/
theorem xor16_xor16_cancel (A B K : Bytes 16) : xor16 (xor16 A K) (xor16 B K) = xor16 A B := by
  apply Vector.ext
  intro i hi
  simp only [getElem_xor16]
  rw [BitVec.xor_comm B[i], BitVec.xor_assoc, ← BitVec.xor_assoc K[i], BitVec.xor_self, BitVec.zero_xor]

theorem xor16_right_injective (K : Bytes 16) : Function.Injective (xor16 · K) := by
  have undo (A : Bytes 16) : xor16 (xor16 A K) (xor16 (zeros 16) K) = A := by
    rw [xor16_xor16_cancel, xor16_zeros]
  intro A B hAB
  rw [← undo A, ← undo B]
  exact congrArg (xor16 · _) hAB

theorem getElem_kdfBlock_header (j : Config.KdfBlock) (N1 : Bytes 12) (i : Nat) (hi : i < 4) :
    (kdfBlock j N1)[i] = (header j)[i] := by
  simp [kdfBlock, hi]

theorem getElem_kdfBlock_nonce (j : Config.KdfBlock) (N1 : Bytes 12) (i : Nat) (hi : i < 12) :
    (kdfBlock j N1)[4 + i] = N1[i] := by
  simp [kdfBlock]

theorem kdfBlock_injective (j : Config.KdfBlock) : Function.Injective (kdfBlock j) :=
  fun _ _ h => ((joinBytes_inj _).mp h).2

/-- Settles O40: a KDF input block is its header, then N1. -/
theorem xorAndBlockLayout : Obligations.XorAndBlockLayout := by
  unfold Obligations.XorAndBlockLayout
  refine ⟨fun A B => ⟨getElem_xor16 A B, xor16_zeros A, xor16_self A⟩, fun N1 => ⟨fun j => ?_, ?_, ?_⟩⟩
  · refine ⟨?_, ?_, ?_, getElem_kdfBlock_nonce j N1⟩
    all_goals
      rw [getElem_kdfBlock_header j N1 _ (by decide)]
      cases j <;> rfl
  · exact getElem_kdfBlock_header .first N1 1 (by decide)
  · exact getElem_kdfBlock_header .second N1 1 (by decide)

/-- `block(1, N1) xor block(2, N1)`, the same for every N1: bits 0 and 1 of byte 1 (R108). -/
def headerDifference : Bytes 16 := #v[0, 3, 0, 0, 0, 0, 0, 0, 0, 0, 0, 0, 0, 0, 0, 0]

/-- The two blocks of one N1 differ as their headers do (R106). -/
theorem xor16_kdfBlock_first_second (N1 : Bytes 12) :
    xor16 (kdfBlock .first N1) (kdfBlock .second N1) = headerDifference := by
  have headers : ∀ i : Fin 4, (header .first)[i.val] ^^^ (header .second)[i.val] = headerDifference[i.val] := by
    decide
  have zeroTail : ∀ k : Fin 12, headerDifference[4 + k.val] = 0 := by decide
  apply Vector.ext
  intro i hi
  rw [getElem_xor16]
  by_cases h : i < 4
  · rw [getElem_kdfBlock_header _ N1 i h, getElem_kdfBlock_header _ N1 i h]
    exact headers ⟨i, h⟩
  · obtain ⟨k, rfl⟩ := Nat.exists_eq_add_of_le (Nat.le_of_not_lt h)
    rw [getElem_kdfBlock_nonce _ N1 k (by omega), getElem_kdfBlock_nonce _ N1 k (by omega), BitVec.xor_self]
    exact (zeroTail ⟨k, by omega⟩).symm

/-- K1 cancels in the XOR of X1 and X2 (R108). -/
theorem xor16_kdfInput_first_second (K1 : Bytes 16) (N1 : Bytes 12) :
    xor16 (kdfInput .first K1 N1) (kdfInput .second K1 N1) = headerDifference := by
  rw [kdfInput, kdfInput, xor16_xor16_cancel, xor16_kdfBlock_first_second]

theorem kdfInput_injective (j : Config.KdfBlock) (K1 : Bytes 16) : Function.Injective (kdfInput j K1) :=
  (xor16_right_injective K1).comp (kdfBlock_injective j)

theorem kdfInput_first_ne_second (K1 : Bytes 16) (N1 : Bytes 12) :
    kdfInput .first K1 N1 ≠ kdfInput .second K1 N1 := by
  intro h
  have hdiff := xor16_kdfInput_first_second K1 N1
  rw [h, xor16_self] at hdiff
  exact absurd hdiff (by decide)

/-- Settles O41: K1 cancels and only the headers are left; neither the XOR with K1 nor the header loses any
of N1. -/
theorem kdfInputsDiffer : Obligations.KdfInputsDiffer := by
  unfold Obligations.KdfInputsDiffer
  exact fun K1 N1 M1 => ⟨fun _ => rfl, xor16_kdfInput_first_second K1 N1, kdfInput_first_ne_second K1 N1,
    fun hne j => (kdfInput_injective j K1).ne hne⟩

end Sys2Proof.Machine

/-! SUPPORT. The host operations by phase and case (41_host_commands.md R120 to R129): what a write outside IDLE
leaves of the operation in progress, and each operation examined in IDLE. -/

namespace Sys2Proof.Machine

/-! ### Writes outside IDLE -/

/-- A write of CMD or DIN in FAULT is ignored, whatever its word (R129). -/
theorem memWrite_fault {s : State} {w : Slot} (hw : w = 2 ∨ w = 3) (hf : s.ph = .fault) (v : Word) :
    memWrite w v s = .next s := by
  obtain ⟨f, hwrite⟩ := memWrite_gated hw v
  rw [hwrite, hostGate_fault hf]

/-! No step of the operation in progress reads or writes OVR, so each commutes with setting it. -/

theorem engineReady_setOvr (s : State) :
    engineReady { s with ovr := true } = { engineReady s with ovr := true } := by
  cases hp : s.ph <;> simp only [engineReady, hp] <;> rfl

theorem takeAnswer_setOvr (r : Bytes 16) (s : State) :
    takeAnswer r { s with ovr := true } = { takeAnswer r s with ovr := true } := by
  cases hp : s.ph <;> simp only [takeAnswer, hp] <;> rfl

theorem answerArrives_setOvr (r : Bytes 16) (s : State) :
    answerArrives r { s with ovr := true } = { answerArrives r s with ovr := true } :=
  takeAnswer_setOvr r (afterAnswer r s)

theorem engineAnswers_setOvr (s : State) :
    engineAnswers { s with ovr := true } = { engineAnswers s with ovr := true } := by
  cases he : s.engine with
  | none => simp only [engineAnswers, he]
  | some q =>
    simp only [engineAnswers, he]
    exact answerArrives_setOvr _ s

/-- Settles O22: the gate drops or ignores the write, and the operation's steps commute with setting OVR. -/
theorem writesWhileBusyAreDropped : Obligations.WritesWhileBusyAreDropped := by
  unfold Obligations.WritesWhileBusyAreDropped
  exact fun s w v hw =>
    ⟨fun hb => memWrite_busy hw hb v, fun hf => memWrite_fault hw hf v, engineReady_setOvr s,
      engineAnswers_setOvr s, fun r => answerArrives_setOvr r s⟩

/-! ### PUSH -/

theorem memWrite_din (v : Word) (s : State) : memWrite 3 v s = exec (.push (v.extractLsb' 0 8)) s :=
  memWrite_of_decode_ok (decode_slotDin v) s

theorem exec_push_idle {s : State} (hp : s.ph = .idle) (b : Byte) :
    exec (.push b) s = .next (pushExamined b s) := congrArg _ (hostGate_idle hp _)

/-- Settles O14: the gate outside IDLE; in IDLE the stored byte and the saturating count. -/
theorem pushStoresAndCounts : Obligations.PushStoresAndCounts := by
  unfold Obligations.PushStoresAndCounts
  rintro s v b rfl
  rw [← memWrite_din]
  refine ⟨rfl, fun hf => memWrite_fault (.inr rfl) hf v, fun hb => memWrite_busy (.inr rfl) hb v,
    fun hp => ⟨pushExamined _ s, ?_, rfl, toNat_countedPush s, getElem_storedByte s _⟩⟩
  rw [memWrite_din, exec_push_idle hp]

/-! ### LOADKEY -/

theorem exec_loadkey_idle {s : State} (hp : s.ph = .idle) :
    exec .loadkey s = .next (loadkeyExamined s) := congrArg _ (hostGate_idle hp _)

/-- Settles O15: the three cases of LOADKEY's checks. -/
theorem loadkeyByCases : Obligations.LoadkeyByCases := by
  unfold Obligations.LoadkeyByCases
  intro s hp
  rw [exec_loadkey_idle hp]
  rcases loadkeyExamined_cases s with ⟨hd, g⟩ | ⟨hd, hl, g⟩ | ⟨hd, hl, g⟩ <;> rw [g]
  · exact ⟨fun _ => rfl, by simp [hd], by simp [hd]⟩
  · exact ⟨by simp [hd], fun _ _ => rfl, fun _ h => absurd h hl⟩
  · exact ⟨by simp [hd], fun _ h => absurd hl h, fun _ _ => rfl⟩

/-! ### DERIVE_SEAL and DERIVE_OPEN -/

theorem exec_deriveSeal_idle {s : State} (hp : s.ph = .idle) :
    exec .deriveSeal s = .next (deriveExamined (State.raiseTrap 1) s) := congrArg _ (hostGate_idle hp _)

theorem exec_deriveOpen_idle {s : State} (hp : s.ph = .idle) :
    exec .deriveOpen s = .next (deriveExamined (fun t => t.consume.raiseError 2) s) :=
  congrArg _ (hostGate_idle hp _)

section DeriveExamined

variable {s : State} (wrongLength : State → State)

theorem deriveExamined_of_pending (hd : s.dkv = true) :
    deriveExamined wrongLength s = s.consume.raiseError 5 := by
  simp only [deriveExamined, hd, if_true]

theorem deriveExamined_of_noKey (hd : s.dkv = false) (hk : s.kv = false) :
    deriveExamined wrongLength s = s.consume.raiseError 4 := by
  simp [deriveExamined, hd, hk]

theorem deriveExamined_of_wrongLength (hd : s.dkv = false) (hk : s.kv = true) (hl : s.ilen ≠ 24) :
    deriveExamined wrongLength s = wrongLength s := by
  rw [deriveExamined, if_neg (by simp [hd]), if_neg (by simp [hk]), if_pos hl]

theorem deriveExamined_of_accepted (hd : s.dkv = false) (hk : s.kv = true) (hl : s.ilen = 24) :
    deriveExamined wrongLength s = startDerivation s := by
  simp [deriveExamined, hd, hk, hl]

end DeriveExamined

/-- Only a wrong length tells the two derive commands apart (R125). -/
theorem deriveExamined_congr {s : State} (f g : State → State)
    (h : s.dkv = true ∨ s.kv = false ∨ s.ilen = 24) : deriveExamined f s = deriveExamined g s := by
  rcases deriveExamined_cases f s with ⟨hd, hf⟩ | ⟨hd, hk, hf⟩ | ⟨hd, hk, hl, -⟩ | ⟨hd, hk, hl, hf⟩
  · rw [hf, deriveExamined_of_pending g hd]
  · rw [hf, deriveExamined_of_noKey g hd hk]
  · simp only [hd, hk, hl, Bool.false_eq_true, Bool.true_eq_false, or_self] at h
  · rw [hf, deriveExamined_of_accepted g hd hk hl]
    rfl

theorem getElem_nonceOperand (s : State) (j : Nat) (h : j < 24) : (nonceOperand s)[j] = s.ibuf[j] := by
  simp [nonceOperand]

/-- What an accepted derive command writes, the nonce taken byte by byte from IBUF (R124, R125). -/
theorem startDerivation_spec (s : State) :
    startDerivation s =
      { s with
        nonce := (startDerivation s).nonce, ibuf := zeros 32, ilen := 0, err := 0, ph := .drv1Req } ∧
    ∀ (j : Nat) (h : j < 24), (startDerivation s).nonce[j] = s.ibuf[j] :=
  ⟨rfl, getElem_nonceOperand s⟩

/-- Settles O16: the four cases of the derive checks, a wrong length being the trap. -/
theorem deriveSealByCases : Obligations.DeriveSealByCases := by
  unfold Obligations.DeriveSealByCases
  intro s hp
  rw [exec_deriveSeal_idle hp]
  refine ⟨fun hd => ?_, fun hd hk => ?_, fun hd hk hl => ?_, fun hd hk hl => ?_⟩
  · rw [deriveExamined_of_pending _ hd]
    rfl
  · rw [deriveExamined_of_noKey _ hd hk]
    rfl
  · rw [deriveExamined_of_wrongLength _ hd hk hl]
  · rw [deriveExamined_of_accepted _ hd hk hl]
    exact ⟨startDerivation s, rfl, startDerivation_spec s⟩

/-- Settles O17: the four cases of the derive checks, a wrong length being an error; the other three do not
depend on the command. -/
theorem deriveOpenByCases : Obligations.DeriveOpenByCases := by
  unfold Obligations.DeriveOpenByCases
  intro s hp
  rw [exec_deriveOpen_idle hp, exec_deriveSeal_idle hp]
  refine ⟨fun hd => ?_, fun hd hk => ?_, fun hd hk hl => ?_, fun hd hk hl => ?_, fun h => ?_⟩
  · rw [deriveExamined_of_pending _ hd]
    rfl
  · rw [deriveExamined_of_noKey _ hd hk]
    rfl
  · rw [deriveExamined_of_wrongLength _ hd hk hl]
    rfl
  · rw [deriveExamined_of_accepted _ hd hk hl]
    exact ⟨startDerivation s, rfl, startDerivation_spec s⟩
  · exact congrArg _ (deriveExamined_congr _ _ h)

/-! ### FLUSH and ZEROIZE -/

theorem exec_flush_idle {s : State} (hp : s.ph = .idle) :
    exec .flush s = .next s.consume.dropCall := congrArg _ (hostGate_idle hp _)

theorem exec_zeroize_idle {s : State} (hp : s.ph = .idle) :
    exec .zeroize s =
      .next { s.consume.dropCall with masterKey := zeros 32, k1 := zeros 16, kv := false } :=
  congrArg _ (hostGate_idle hp _)

/-- ZEROIZE clears every register but FCAUSE and PH, which are zero in IDLE (V10) (R127). -/
theorem Inv.zeroized_sameBlock_reset {s : State} (h : Inv s) (hp : s.ph = .idle) :
    SameBlock { s.consume.dropCall with masterKey := zeros 32, k1 := zeros 16, kv := false }
      State.reset where
  ibuf := rfl
  ilen := rfl
  masterKey := rfl
  k1 := rfl
  nonce := rfl
  dk := rfl
  kv := rfl
  dkv := rfl
  ovr := rfl
  err := rfl
  fcause := h.fcause_eq_zero (by simp [hp])
  ph := hp

/-- Settles O21: what the two commands clear in IDLE, and V10 for FCAUSE, which ZEROIZE does not touch. -/
theorem flushAndZeroizeClear : Obligations.FlushAndZeroizeClear := by
  unfold Obligations.FlushAndZeroizeClear
  exact fun s hp =>
    ⟨exec_flush_idle hp, exec_zeroize_idle hp,
      fun h => ⟨_, exec_zeroize_idle hp, h.zeroized_sameBlock_reset hp⟩⟩

end Sys2Proof.Machine

/-! SUPPORT. The sequencer's steps (42_sequencer_steps.md R150 to R160): what the engine's acceptance and the
consumer's taking do by phase, the phase every effect leads to, and which steps are enabled. -/

namespace Sys2Proof.Machine

/-! ### The engine's acceptance -/

theorem step_aesAccept {s : State} {rest : List Event} (h : s.agenda = .aesAccept :: rest) :
    step s = .next (engineReady (s.withAgenda rest)) := step_cons h

theorem engineReady_initReq {s : State} (hp : s.ph = .initReq) :
    engineReady s = acceptRequest zeroBlock .initWait s := by
  simp only [engineReady, hp, seqInitReq]

theorem engineReady_drv1Req {s : State} (hp : s.ph = .drv1Req) :
    engineReady s = acceptRequest (requestX .first s) .drv1Wait s := by
  simp only [engineReady, hp, seqDrv1Req]

theorem engineReady_drv2Req {s : State} (hp : s.ph = .drv2Req) :
    engineReady s = acceptRequest (requestX .second s) .drv2Wait s := by
  simp only [engineReady, hp, seqDrv2Req]

theorem engineReady_of_noRequest {s : State} (h : aReqValid s = false) : engineReady s = s := by
  rcases engineReady_cases s with ⟨hp, -⟩ | ⟨hp, -⟩ | ⟨hp, -⟩ | ⟨-, -, -, g⟩
  iterate 3 simp [aReqValid, hp] at h
  exact g

/-- Settles O25: a ready engine captures MK and the block of the phase, and nothing outside phases 1, 3, 5. -/
theorem requestStepsSendTheBlockOfThePhase : Obligations.RequestStepsSendTheBlockOfThePhase := by
  unfold Obligations.RequestStepsSendTheBlockOfThePhase
  intro s rest ha
  rw [step_aesAccept ha]
  refine ⟨fun hp => ?_, fun hp => ?_, fun hp => ?_, fun h1 h2 h3 => ?_⟩
  · rw [engineReady_initReq (s := s.withAgenda rest) hp]
    rfl
  · rw [engineReady_drv1Req (s := s.withAgenda rest) hp]
    rfl
  · rw [engineReady_drv2Req (s := s.withAgenda rest) hp]
    rfl
  · have hno : aReqValid (s.withAgenda rest) = false := by
      rw [← Bool.not_eq_true, aReqValid_iff]
      exact fun h => h.elim h1 fun h => h.elim h2 h3
    rw [engineReady_of_noRequest hno]
    rfl

/-! ### The consumer -/

theorem step_take {s : State} {rest : List Event} (h : s.agenda = .take :: rest) :
    step s = .next (consumerReady (s.withAgenda rest)) := step_cons h

theorem consumerReady_of_dkv {s : State} (hd : s.dkv = true) :
    consumerReady s =
      { s.record (.deliver s.dk (nonceN2 s.nonce)) with
        dk := zeros 32, nonce := zeros 24, dkv := false } := if_pos hd

theorem consumerReady_of_not_dkv {s : State} (hd : s.dkv = false) : consumerReady s = s :=
  if_neg (Bool.eq_false_iff.mp hd)

/-- Settles O27: the consumer takes DK and N2, the last 12 bytes of the nonce, and only while DKV = 1. -/
theorem deliveryHandsOverAndClears : Obligations.DeliveryHandsOverAndClears := by
  unfold Obligations.DeliveryHandsOverAndClears
  intro s rest ha
  rw [step_take ha]
  refine ⟨fun hd => ⟨nonceN2 s.nonce, getElem_nonceN2 s.nonce, ?_⟩, fun hd => ?_⟩
  · rw [consumerReady_of_dkv (s := s.withAgenda rest) hd]
    rfl
  · rw [consumerReady_of_not_dkv (s := s.withAgenda rest) hd]
    rfl

/-! ### The phase transition table -/

/-- The rows of the table that start in IDLE. -/
theorem nextPhase_hostWrite_of_idle {s : State} (hp : s.ph = .idle) (w : Slot) (v : Word) :
    nextPhase (.hostWrite w v) s =
      if w = 2 ∧ v = 1 ∧ s.dkv = false ∧ s.ilen = 32 then .initReq
      else if w = 2 ∧ (v = 2 ∨ v = 3) ∧ s.dkv = false ∧ s.kv = true ∧ s.ilen = 24 then .drv1Req
      else if w = 2 ∧ v = 2 ∧ s.dkv = false ∧ s.kv = true ∧ s.ilen ≠ 24 then .fault
      else .idle := by
  unfold nextPhase
  rw [hp]

/-- Outside IDLE no host write moves the phase. -/
theorem nextPhase_hostWrite_of_ne_idle {s : State} (hp : s.ph ≠ .idle) (w : Slot) (v : Word) :
    nextPhase (.hostWrite w v) s = s.ph := by
  unfold nextPhase
  cases h : s.ph with
  | idle => exact absurd h hp
  | _ => rfl

/-- No write but one of CMD moves the phase. -/
theorem nextPhase_hostWrite_of_ne_cmd {w : Slot} (hw : w ≠ 2) (v : Word) (s : State) :
    nextPhase (.hostWrite w v) s = s.ph := by
  by_cases hp : s.ph = .idle
  · rw [nextPhase_hostWrite_of_idle hp, hp, if_neg (hw ·.1), if_neg (hw ·.1),
      if_neg (hw ·.1)]
  · exact nextPhase_hostWrite_of_ne_idle hp w v

theorem nextPhase_hostRead (w : Slot) (s : State) : nextPhase (.hostRead w) s = s.ph := by
  unfold nextPhase
  cases s.ph <;> rfl

theorem nextPhase_take (s : State) : nextPhase .take s = s.ph := by
  unfold nextPhase
  cases s.ph <;> rfl

section EngineRows

variable {s : State}

theorem nextPhase_aesAccept_initReq (hp : s.ph = .initReq) : nextPhase .aesAccept s = .initWait := by
  unfold nextPhase
  rw [hp]

theorem nextPhase_aesAccept_drv1Req (hp : s.ph = .drv1Req) : nextPhase .aesAccept s = .drv1Wait := by
  unfold nextPhase
  rw [hp]

theorem nextPhase_aesAccept_drv2Req (hp : s.ph = .drv2Req) : nextPhase .aesAccept s = .drv2Wait := by
  unfold nextPhase
  rw [hp]

theorem nextPhase_aesAccept_of_noRequest (h1 : s.ph ≠ .initReq) (h2 : s.ph ≠ .drv1Req)
    (h3 : s.ph ≠ .drv2Req) : nextPhase .aesAccept s = s.ph := by
  unfold nextPhase
  cases h : s.ph with
  | initReq => exact absurd h h1
  | drv1Req => exact absurd h h2
  | drv2Req => exact absurd h h3
  | _ => rfl

theorem nextPhase_aesResp_initWait (hp : s.ph = .initWait) (r : Bytes 16) :
    nextPhase (.aesResp r) s = .idle := by
  unfold nextPhase
  rw [hp]

theorem nextPhase_aesResp_drv1Wait (hp : s.ph = .drv1Wait) (r : Bytes 16) :
    nextPhase (.aesResp r) s = .drv2Req := by
  unfold nextPhase
  rw [hp]

theorem nextPhase_aesResp_drv2Wait (hp : s.ph = .drv2Wait) (r : Bytes 16) :
    nextPhase (.aesResp r) s = .idle := by
  unfold nextPhase
  rw [hp]

theorem nextPhase_aesResp_of_unawaited (h1 : s.ph ≠ .initWait) (h2 : s.ph ≠ .drv1Wait)
    (h3 : s.ph ≠ .drv2Wait) (r : Bytes 16) : nextPhase (.aesResp r) s = s.ph := by
  unfold nextPhase
  cases h : s.ph with
  | initWait => exact absurd h h1
  | drv1Wait => exact absurd h h2
  | drv2Wait => exact absurd h h3
  | _ => rfl

/-- The contract's answer moves the phase as any answer does, if the engine holds a request. -/
theorem nextPhase_aesAnswer_of_held {q : AesRequest} (he : s.engine = some q) (r : Bytes 16) :
    nextPhase .aesAnswer s = nextPhase (.aesResp r) s := by
  unfold nextPhase
  rw [he]
  cases s.ph <;> rfl

theorem nextPhase_aesAnswer_of_noRequestHeld (he : s.engine = none) : nextPhase .aesAnswer s = s.ph := by
  unfold nextPhase
  rw [he]
  cases s.ph <;> rfl

end EngineRows

theorem Phase.ne_idle_of_busy {p : Phase} (hb : p.busy = true) : p ≠ .idle := by
  rintro rfl
  cases hb

/-- Every effect leads to the phase of its row, or keeps the phase if it has no row (R160). -/
theorem Effect.ph_eq {s t : State} {e : Event} (he : Effect s e t) : t.ph = nextPhase e s := by
  cases he with
  | otherSlot h2 => exact (nextPhase_hostWrite_of_ne_cmd h2 _ s).symm
  | ignored _ hp => exact (nextPhase_hostWrite_of_ne_idle (by simp [hp]) _ _).symm
  | dropped _ hb => exact (nextPhase_hostWrite_of_ne_idle (Phase.ne_idle_of_busy hb) _ _).symm
  | pushed => exact (nextPhase_hostWrite_of_ne_cmd (by decide) _ s).symm
  | keyPending hp hd | derivePending _ hp hd => simp [nextPhase_hostWrite_of_idle hp, hp, hd]
  | keyLength hp _ hl | openLength hp _ _ hl | sealTrapped hp _ _ hl => simp_all [nextPhase_hostWrite_of_idle hp]
  | keyStarted hp hd hl => simp [nextPhase_hostWrite_of_idle hp, hd, hl]
  | deriveNoKey hv hp _ hk => rcases hv with rfl | rfl <;> simp [nextPhase_hostWrite_of_idle hp, hp, hk]
  | deriveStarted hv hp hd hk hl =>
    rcases hv with rfl | rfl <;> simp [nextPhase_hostWrite_of_idle hp, hd, hk, hl]
  | flushed hp | zeroized hp => simp [nextPhase_hostWrite_of_idle hp, hp]
  | illegal hv hp =>
    obtain ⟨h1, h2, h3, -⟩ := hv
    simp_all [nextPhase_hostWrite_of_idle hp]
  | read => exact (nextPhase_hostRead _ s).symm
  | initReq hp => exact (nextPhase_aesAccept_initReq hp).symm
  | drv1Req hp => exact (nextPhase_aesAccept_drv1Req hp).symm
  | drv2Req hp => exact (nextPhase_aesAccept_drv2Req hp).symm
  | noRequest h1 h2 h3 => exact (nextPhase_aesAccept_of_noRequest h1 h2 h3).symm
  | initResp hp => exact (nextPhase_aesResp_initWait hp _).symm
  | drv1Resp hp => exact (nextPhase_aesResp_drv1Wait hp _).symm
  | drv2Resp hp => exact (nextPhase_aesResp_drv2Wait hp _).symm
  | unawaited h1 h2 h3 => exact (nextPhase_aesResp_of_unawaited h1 h2 h3 _).symm
  | noRequestHeld he => exact (nextPhase_aesAnswer_of_noRequestHeld he).symm
  | initAnswer he hp =>
    exact ((nextPhase_aesAnswer_of_held he _).trans (nextPhase_aesResp_initWait hp (zeros 16))).symm
  | drv1Answer he hp =>
    exact ((nextPhase_aesAnswer_of_held he _).trans (nextPhase_aesResp_drv1Wait hp (zeros 16))).symm
  | drv2Answer he hp =>
    exact ((nextPhase_aesAnswer_of_held he _).trans (nextPhase_aesResp_drv2Wait hp (zeros 16))).symm
  | unawaitedAnswer he h1 h2 h3 =>
    exact ((nextPhase_aesAnswer_of_held he _).trans (nextPhase_aesResp_of_unawaited h1 h2 h3 (zeros 16))).symm
  | delivered | notOffered => exact (nextPhase_take s).symm
  | reset => rfl

/-- Settles O30: each effect has its row of the table, and no row reads the agenda. -/
theorem phaseTransitionTable : Obligations.PhaseTransitionTable := by
  unfold Obligations.PhaseTransitionTable
  exact fun s t e rest ha h => (effect_of_step ha h).ph_eq

/-! ### The enabled steps -/

/-- A step that records an event of a port is never without effect. -/
theorem ne_of_trace_eq_cons {s t : State} {x : PortEvent} (h : t.trace = x :: s.trace) : t ≠ s := by
  rintro rfl
  exact List.cons_ne_self x t.trace h.symm

theorem engineReady_ne_self_iff (s : State) : engineReady s ≠ s ↔ aReqValid s = true := by
  rw [aReqValid_iff]
  rcases engineReady_cases s with ⟨hp, g⟩ | ⟨hp, g⟩ | ⟨hp, g⟩ | ⟨h1, h2, h3, g⟩ <;> rw [g]
  · exact iff_of_true (ne_of_trace_eq_cons rfl) (.inl hp)
  · exact iff_of_true (ne_of_trace_eq_cons rfl) (.inr (.inl hp))
  · exact iff_of_true (ne_of_trace_eq_cons rfl) (.inr (.inr hp))
  · exact iff_of_false (· rfl) (not_or.mpr ⟨h1, not_or.mpr ⟨h2, h3⟩⟩)

theorem answerArrives_trace (r : Bytes 16) (s : State) :
    (answerArrives r s).trace = .aesResp r :: s.trace := by
  rcases answerArrives_cases r s with ⟨-, g⟩ | ⟨-, g⟩ | ⟨-, g⟩ | ⟨-, -, -, g⟩ <;> rw [g] <;> rfl

theorem engineAnswers_ne_self_iff (s : State) : engineAnswers s ≠ s ↔ s.engine ≠ none := by
  rcases engineAnswers_cases s with ⟨he, g⟩ | ⟨q, he, g⟩ <;> rw [g, he]
  · exact iff_of_false (· rfl) (· rfl)
  · exact iff_of_true (ne_of_trace_eq_cons (answerArrives_trace _ s)) (Option.some_ne_none q)

theorem consumerReady_ne_self_iff (s : State) : consumerReady s ≠ s ↔ s.dkv = true := by
  rcases consumerReady_cases s with ⟨hd, g⟩ | ⟨hd, g⟩ <;> rw [g, hd]
  · exact iff_of_true (ne_of_trace_eq_cons rfl) rfl
  · exact iff_of_false (· rfl) Bool.false_ne_true

theorem awaitedRequest_ne_none_iff (s : State) :
    awaitedRequest s ≠ none ↔ s.ph = .initWait ∨ s.ph = .drv1Wait ∨ s.ph = .drv2Wait := by
  unfold awaitedRequest
  cases s.ph <;> simp

section Enabled

variable {s : State} (h : Inv s)
include h

/-- The engine holds a request in the waiting phases and in no other (R35). -/
theorem Inv.engine_ne_none_iff :
    s.engine ≠ none ↔ s.ph = .initWait ∨ s.ph = .drv1Wait ∨ s.ph = .drv2Wait := by
  rw [h.held, awaitedRequest_ne_none_iff]

/-- An output is offered in IDLE only (V1). -/
theorem Inv.dkv_eq_false (hp : s.ph ≠ .idle) : s.dkv = false :=
  Bool.eq_false_iff.mpr fun hd => hp (h.v1 hd).1

/-- The working phases are those of a presented and those of an awaited request, so what is left without a
step is FAULT, and IDLE with no output (R229). -/
theorem Inv.quiescent_iff : Quiescent s ↔ ¬aReqValid s = true ∧ ¬s.engine ≠ none ∧ ¬s.dkv = true := by
  rw [aReqValid_iff, h.engine_ne_none_iff]
  cases hp : s.ph with
  | idle => simp [Quiescent, hp]
  | fault => simp [Quiescent, hp, h.dkv_eq_false]
  | _ => simp [Quiescent, hp]

end Enabled

/-- Settles O32: an enabled step records its event, so it is enabled exactly when it changes the state; the
invariants tie the held request and the output to the phase. -/
theorem oneEnabledStepPerWorkingPhase : Obligations.OneEnabledStepPerWorkingPhase := by
  unfold Obligations.OneEnabledStepPerWorkingPhase
  intro s h
  refine ⟨?_, ?_, consumerReady_ne_self_iff s, fun hb => ?_, ?_⟩
  · rw [engineReady_ne_self_iff, aReqValid_iff]
  · rw [engineAnswers_ne_self_iff, h.engine_ne_none_iff]
  · exact consumerReady_of_not_dkv (h.dkv_eq_false (Phase.ne_idle_of_busy hb))
  · rw [h.quiescent_iff, ← engineReady_ne_self_iff, ← engineAnswers_ne_self_iff,
      ← consumerReady_ne_self_iff, not_not, not_not, not_not]

end Sys2Proof.Machine

/-! SUPPORT. Exceptions (60_exceptions.md R190 to R201): the trap and the one effect that enters FAULT, the
error of each command in the order of its tests, and what the events do in FAULT. -/

namespace Sys2Proof.Machine

/-! ### The trap -/

/-- The block's twelve pieces of state do not include the engine's request and the model's two lists. -/
theorem sameBlock_setEnvironment (s : State) (q : Option AesRequest) (es : List Event) (xs : List PortEvent) :
    SameBlock { s with engine := q, agenda := es, trace := xs } s :=
  ⟨rfl, rfl, rfl, rfl, rfl, rfl, rfl, rfl, rfl, rfl, rfl, rfl⟩

theorem raiseTrap_sameBlock (cause : BitVec 4) (s : State) :
    SameBlock (s.raiseTrap cause) { State.reset with fcause := cause, ph := .fault } :=
  sameBlock_setEnvironment { State.reset with fcause := cause, ph := .fault } _ _ _

/-- FAULT stands for 8 in bit 3 and for 7 in the field of PH; every flag and ERR are zero. -/
theorem toNat_statusWord_raiseTrap (cause : BitVec 4) (s : State) :
    (statusWord (s.raiseTrap cause)).toNat = 8 + 4096 * cause.toNat + 65536 * 7 := by
  rw [toNat_statusWord]
  simp [Phase.busy, Phase.code]

theorem statusWord_raiseTrap_one (s : State) : statusWord (s.raiseTrap 1) = 0x00071008 := by
  apply BitVec.eq_of_toNat_eq
  rw [toNat_statusWord_raiseTrap]
  rfl

/-- Settles O19: the trap writes every register of the block, and STATUS is the sum of its fields. -/
theorem trapEntryDestroysEverything : Obligations.TrapEntryDestroysEverything := by
  unfold Obligations.TrapEntryDestroysEverything
  exact fun s cause =>
    ⟨raiseTrap_sameBlock cause s, toNat_statusWord_raiseTrap cause s, statusWord_raiseTrap_one s, rfl, rfl, rfl⟩

theorem memWrite_sealTrapped {s : State} (hp : s.ph = .idle) (hd : s.dkv = false) (hk : s.kv = true)
    (hl : s.ilen ≠ 24) : memWrite 2 2 s = .next (s.raiseTrap 1) := by
  rw [memWrite_of_decode_ok (i := .deriveSeal) (by decide), exec_deriveSeal_idle hp,
    deriveExamined_of_wrongLength _ hd hk hl]

/-- R196: the write itself traps, and it is all that crosses a port. -/
theorem step_sealTrapped {s : State} {rest : List Event} (ha : s.agenda = .hostWrite 2 2 :: rest)
    (hp : s.ph = .idle) (hd : s.dkv = false) (hk : s.kv = true) (hl : s.ilen ≠ 24) :
    step s = .next (((s.withAgenda rest).record (.hostWrite 2 2)).raiseTrap 1) :=
  (step_cons ha).trans (memWrite_sealTrapped hp hd hk hl)

/-- Only the trap writes FAULT to PH; every other effect writes another phase or keeps PH. -/
theorem Effect.enters_fault {s t : State} {e : Event} (he : Effect s e t) (ht : t.ph = .fault)
    (hs : s.ph ≠ .fault) :
    e = .hostWrite 2 2 ∧ s.ph = .idle ∧ s.dkv = false ∧ s.kv = true ∧ s.ilen ≠ 24 := by
  cases he with
  | sealTrapped hp hd hk hl => exact ⟨rfl, hp, hd, hk, hl⟩
  | keyStarted | deriveStarted | initReq | drv1Req | drv2Req | reset => cases ht
  | initResp | drv1Resp | drv2Resp | initAnswer | drv1Answer | drv2Answer => cases ht
  | _ => exact absurd ht hs

/-- Settles O20: DERIVE_SEAL with a wrong length is the trap, and of the effects only the trap enters FAULT. -/
theorem wrongSealLengthIsTheOnlyTrap : Obligations.WrongSealLengthIsTheOnlyTrap := by
  unfold Obligations.WrongSealLengthIsTheOnlyTrap
  intro s t e rest ha h
  refine ⟨?_, (effect_of_step ha h).enters_fault⟩
  rintro hp hd hk hl rfl
  obtain rfl := Host.Outcome.next.inj ((step_sealTrapped ha hp hd hk hl).symm.trans h)
  exact ⟨raiseTrap_sameBlock 1 _, statusWord_raiseTrap_one _, rfl⟩

/-! ### The order of the tests -/

theorem loadkeyExamined_err (s : State) : (loadkeyExamined s).err =
    if s.dkv = true then 5 else if s.ilen = 32 then 0 else 1 := by
  rcases loadkeyExamined_cases s with ⟨hd, g⟩ | ⟨hd, hl, g⟩ | ⟨hd, hl, g⟩ <;> rw [g]
  · rw [if_pos hd]
    rfl
  · rw [if_neg (Bool.eq_false_iff.mp hd), if_neg hl]
    rfl
  · rw [if_neg (Bool.eq_false_iff.mp hd), if_pos hl]

theorem loadkeyExamined_ovr (s : State) : (loadkeyExamined s).ovr = s.ovr := by
  rcases loadkeyExamined_cases s with ⟨-, g⟩ | ⟨-, -, g⟩ | ⟨-, -, g⟩ <;> rw [g] <;> rfl

theorem loadkeyExamined_ph_ne_fault {s : State} (hp : s.ph = .idle) : (loadkeyExamined s).ph ≠ .fault := by
  rcases loadkeyExamined_cases s with ⟨-, g⟩ | ⟨-, -, g⟩ | ⟨-, -, g⟩ <;> simp [g, hp]

theorem deriveExamined_err (wrongLength : State → State) (s : State) : (deriveExamined wrongLength s).err =
    if s.dkv = true then 5 else if s.kv = false then 4 else if s.ilen = 24 then 0
    else (wrongLength s).err := by
  rcases deriveExamined_cases wrongLength s with
    ⟨hd, g⟩ | ⟨hd, hk, g⟩ | ⟨hd, hk, hl, g⟩ | ⟨hd, hk, hl, g⟩ <;> rw [g]
  · rw [if_pos hd]
    rfl
  · rw [if_neg (Bool.eq_false_iff.mp hd), if_pos hk]
    rfl
  · rw [if_neg (Bool.eq_false_iff.mp hd), if_neg (by simp [hk]), if_neg hl]
  · rw [if_neg (Bool.eq_false_iff.mp hd), if_neg (by simp [hk]), if_pos hl]

/-- The checks of a derive command pass but for the length (R124, R125). -/
def WrongNonceLength (s : State) : Prop := s.dkv = false ∧ s.kv = true ∧ s.ilen ≠ 24

/-- With a wrong length the command's own outcome, else a state that keeps OVR and is not in FAULT. -/
theorem deriveExamined_ovr_ph (wrongLength : State → State) {s : State} (hp : s.ph = .idle) :
    (WrongNonceLength s ∧ deriveExamined wrongLength s = wrongLength s) ∨
    (¬WrongNonceLength s ∧ (deriveExamined wrongLength s).ovr = s.ovr ∧
      (deriveExamined wrongLength s).ph ≠ .fault) := by
  rcases deriveExamined_cases wrongLength s with
    ⟨hd, g⟩ | ⟨hd, hk, g⟩ | ⟨hd, hk, hl, g⟩ | ⟨hd, hk, hl, g⟩
  · exact .inr (by simp [WrongNonceLength, g, hd, hp])
  · exact .inr (by simp [WrongNonceLength, g, hk, hp])
  · exact .inl ⟨⟨hd, hk, hl⟩, g⟩
  · exact .inr (by simp [WrongNonceLength, g, hl])

/-- R201: the code a CMD write examined in IDLE leaves in ERR, by the first condition that holds. -/
def examinedError (v : Word) (s : State) : BitVec 4 :=
  if v.toNat = 0 ∨ 5 < v.toNat then 3
  else if v = 4 ∨ v = 5 then 0
  else if s.dkv = true then 5
  else if v ≠ 1 ∧ s.kv = false then 4
  else if v = 1 then (if s.ilen = 32 then 0 else 1)
  else if s.ilen = 24 then 0
  else if v = 2 then 0
  else 2

/-- R201: the exceptions of a CMD write examined in IDLE. -/
theorem memWrite_cmd_idle_exceptions {s : State} (hp : s.ph = .idle) (v : Word) :
    ∃ t, memWrite 2 v s = .next t ∧ t.err = examinedError v s ∧
      (t.ovr = true ↔ s.ovr = true ∧ ¬(v = 4 ∨ v = 5 ∨ (v = 2 ∧ WrongNonceLength s))) ∧
      (t.ph = .fault ↔ v = 2 ∧ WrongNonceLength s) := by
  rcases memWrite_cmd_cases v with ⟨rfl, h⟩ | ⟨rfl, h⟩ | ⟨rfl, h⟩ | ⟨rfl, h⟩ | ⟨rfl, h⟩ | ⟨hv, h⟩ <;>
    refine ⟨_, (h s).trans (congrArg _ (hostGate_idle hp _)), ?_⟩
  · simp [examinedError, loadkeyExamined_err, loadkeyExamined_ovr, loadkeyExamined_ph_ne_fault hp]
  · refine ⟨by simp [examinedError, deriveExamined_err], ?_⟩
    rcases deriveExamined_ovr_ph (State.raiseTrap 1) hp with ⟨hw, g⟩ | ⟨hw, ho, hf⟩
    · rw [g]
      simp [hw]
    · exact ⟨by rw [ho]; simp [hw], iff_of_false hf (by simp [hw])⟩
  · refine ⟨by simp [examinedError, deriveExamined_err], ?_⟩
    rcases deriveExamined_ovr_ph (fun t => t.consume.raiseError 2) hp with ⟨hw, g⟩ | ⟨hw, ho, hf⟩
    · rw [g]
      simp [hp]
    · exact ⟨by rw [ho]; simp, iff_of_false hf (by simp)⟩
  · simp [examinedError, hp]
  · simp [examinedError, hp]
  · have h2 : v ≠ 2#32 := by bv_omega
    have h4 : v ≠ 4#32 := by bv_omega
    have h5 : v ≠ 5#32 := by bv_omega
    simp [examinedError, hp, hv, h2, h4, h5]

/-- Settles O23: outside IDLE the gate drops or ignores the write; in IDLE the tests of its word decide. -/
theorem exceptionPriority : Obligations.ExceptionPriority := by
  unfold Obligations.ExceptionPriority
  intro s v
  rcases Phase.trichotomy s.ph with hp | hp | hb
  · obtain ⟨t, ht, herr, hovr, hph⟩ := memWrite_cmd_idle_exceptions hp v
    refine ⟨t, ht, ?_, ?_, ?_⟩
    · rw [if_neg (by simp [hp]), if_neg (by simp [hp]), herr, examinedError]
    · simp [hovr, hp, Phase.busy, WrongNonceLength]
    · simp [hph, hp, WrongNonceLength]
  · exact ⟨s, memWrite_fault (.inl rfl) hp v, by simp [hp, Phase.busy]⟩
  · have hidle : s.ph ≠ .idle := Phase.ne_idle_of_busy hb
    exact ⟨_, memWrite_busy (.inl rfl) hb v, by simp [hb, hidle]⟩

/-! ### In FAULT -/

/-- In a state that meets the invariants FCAUSE names the only trap (R191, R196), so STATUS is known. -/
theorem Inv.statusWord_fault {s : State} (h : Inv s) (hp : s.ph = .fault) : statusWord s = 0x00071008 := by
  obtain ⟨-, -, -, -, -, -, hkv, hdkv, hovr, herr, hcause⟩ := h.v4 hp
  have hone : s.fcause = 1 := by
    have := h.causeCode
    bv_omega
  apply BitVec.eq_of_toNat_eq
  rw [toNat_statusWord, hp, hkv, hdkv, hovr, herr, hone]
  rfl

/-- In FAULT an event other than reset changes nothing of the block and hands nothing out (R199): every effect
that does more starts in another phase or with an output. -/
theorem Effect.in_fault {s t : State} {e : Event} (he : Effect s e t) (hp : s.ph = .fault)
    (hd : s.dkv = false) (hr : e ≠ .reset) :
    SameBlock t s ∧ (t.trace = s.trace ∨ ∃ x : PortEvent, x.isOutput = false ∧ t.trace = x :: s.trace) := by
  cases he with
  | noRequest | noRequestHeld | notOffered => exact ⟨sameBlock_setEnvironment s _ _ _, .inl rfl⟩
  | otherSlot | ignored | read | unawaited | unawaitedAnswer =>
    exact ⟨sameBlock_setEnvironment s _ _ _, .inr ⟨_, rfl, rfl⟩⟩
  | dropped _ hb => rw [hp] at hb; cases hb
  | delivered hd' => cases hd.symm.trans hd'
  | reset => exact absurd rfl hr
  | _ => simp_all

/-- What the host reads and the ports show in FAULT (R199). -/
theorem Inv.outputs_fault {s : State} (h : Inv s) (hp : s.ph = .fault) :
    memRead 0 s = 0x584B4401 ∧ memRead 1 s = 0x00071008 ∧ memRead 4 s = 0 ∧
    aReqValid s = false ∧ gValid s = false ∧ aKey s = 0 ∧ aBlock s = 0 ∧ gKey s = 0 ∧ gNonce s = 0 := by
  obtain ⟨-, -, -, -, -, hilen, -, hd, -⟩ := h.v4 hp
  have hreq : aReqValid s = false := by simp [aReqValid, hp]
  obtain ⟨hkey, hblock⟩ := portA_zero hreq
  obtain ⟨hdk, hn2⟩ := portG_zero hd
  refine ⟨memRead_id s, h.statusWord_fault hp, ?_, hreq, hd, hkey, hblock, hdk, hn2⟩
  rw [memRead_ilen, hilen]
  rfl

/-- Settles O50: what a state in FAULT shows, by V4 and the codes of FCAUSE, and what an event does to it. -/
theorem faultIsLeftOnlyByReset : Obligations.FaultIsLeftOnlyByReset := by
  unfold Obligations.FaultIsLeftOnlyByReset
  intro s t e rest h hp ha hstep
  have he := effect_of_step ha hstep
  obtain ⟨hid, hstatus, hilen, hreq, hvalid, hkey, hblock, hdk, hn2⟩ := h.outputs_fault hp
  refine ⟨hid, hstatus, hilen, hreq, hvalid, hkey, hblock, hdk, hn2, ?_⟩
  by_cases hr : e = .reset
  · subst hr
    obtain rfl := he.of_reset
    exact ⟨absurd rfl, fun _ => sameBlock_setEnvironment State.reset _ _ _, .inr ⟨_, rfl, rfl⟩⟩
  · obtain ⟨hsame, htrace⟩ := he.in_fault hp hvalid hr
    exact ⟨fun _ => { hsame with }, fun hreset => absurd hreset hr, htrace⟩

end Sys2Proof.Machine

/-! SUPPORT. One step of the invariants (10_state.md section 6), and the step as the run of its next event: host
writes by what the decoder answers, bare table words, and every other event (20_memory.md R60 to R66). -/

namespace Sys2Proof.Machine

/-! ### The invariants -/

/-- Settles O43: every effect of the next event keeps the invariants, and with nothing scheduled nothing
changes. -/
theorem stepKeepsTheInvariants : Obligations.StepKeepsTheInvariants := by
  unfold Obligations.StepKeepsTheInvariants
  exact fun _ _ h hstep => step_inv h hstep

/-- V5 says nothing while KV = 0. -/
theorem keyMatches_of_noKey {s : State} (hk : s.kv = false) : KeyMatches s :=
  fun h => absurd h (Bool.eq_false_iff.mp hk)

/-- Settles O44: reset leaves an idle state with no key, no output and no request. -/
theorem resetMeetsTheInvariants : Obligations.ResetMeetsTheInvariants := by
  unfold Obligations.ResetMeetsTheInvariants
  exact fun es => ⟨inv_reset es, keyMatches_of_noKey rfl⟩

/-- Settles O45: K1 is written only from the answer to LOADKEY's request, which the contract fixes. -/
theorem contractStepKeepsTheSubkey : Obligations.ContractStepKeepsTheSubkey := by
  unfold Obligations.ContractStepKeepsTheSubkey
  exact fun _ _ h hm hc hstep => step_keyMatches h hm hc hstep

/-! ### The encoding -/

/-- Settles O3: command by command, and for a push by its low byte. -/
theorem decodeInvertsEncode : Obligations.DecodeInvertsEncode := by
  unfold Obligations.DecodeInvertsEncode
  exact decode_encode

/-- Settles O4: the decoder evaluated on the ten words. -/
theorem wordsOfTheEncodingTable : Obligations.WordsOfTheEncodingTable := by
  unfold Obligations.WordsOfTheEncodingTable
  decide

theorem accessWellFormed_iff (addr size : Nat) :
    accessWellFormed addr size = true ↔ size = 4 ∧ addr % 4 = 0 ∧ addr < 32 := by
  simp only [accessWellFormed, Bool.and_eq_true, decide_eq_true_eq, and_assoc]

theorem programEvents_singleton_of_wellFormed {l : HostLine} (h : l.wellFormed = true) :
    programEvents [l] = some (lineEvents l) := by
  simp [programEvents, h]

theorem programEvents_singleton_of_not_wellFormed {l : HostLine} (h : ¬l.wellFormed = true) :
    programEvents [l] = none := by
  simp [programEvents, h]

/-- Settles O6: a memory line is well-formed exactly when port H can carry its access. -/
theorem accessesPortHCannotCarryAreRefused : Obligations.AccessesPortHCannotCarryAreRefused := by
  unfold Obligations.AccessesPortHCannotCarryAreRefused
  intro addr size v
  rw [← accessWellFormed_iff]
  exact ⟨fun h => ⟨programEvents_singleton_of_wellFormed (l := .memWrite addr size v) h,
      programEvents_singleton_of_wellFormed (l := .memRead addr size) h⟩,
    fun h => ⟨programEvents_singleton_of_not_wellFormed (l := .memWrite addr size v) h,
      programEvents_singleton_of_not_wellFormed (l := .memRead addr size) h⟩⟩

/-! ### The step of a host write -/

theorem step_hostWrite {s : State} {w : Slot} {v : Word} {rest : List Event}
    (ha : s.agenda = .hostWrite w v :: rest) :
    step s = memWrite w v ((s.withAgenda rest).record (.hostWrite w v)) := step_cons ha

theorem step_hostWrite_of_decode_ok {s : State} {w : Slot} {v : Word} {rest : List Event} {i : Instr}
    (ha : s.agenda = .hostWrite w v :: rest) (hd : decode w v = .ok i) :
    step s = exec i ((s.withAgenda rest).record (.hostWrite w v)) := by
  rw [step_hostWrite ha, memWrite_of_decode_ok hd]

/-- Settles O7: a host write that decodes is the instruction it decodes to. -/
theorem stepRunsTheDecodedInstruction : Obligations.StepRunsTheDecodedInstruction := by
  unfold Obligations.StepRunsTheDecodedInstruction
  exact fun _ _ _ _ _ ha hd => step_hostWrite_of_decode_ok ha hd

/-- A table word that decodes has at most `nbits` bits and is decoded on the slot the model takes it for. -/
theorem lt_and_decode_of_decodeTableWord {nbits w : Nat} {i : Instr} (h : decodeTableWord nbits w = some i) :
    w < 2 ^ nbits ∧ decode (tableSlot (BitVec.ofNat 32 w)) (BitVec.ofNat 32 w) = .ok i := by
  unfold decodeTableWord at h
  split_ifs at h with hbits hlt
  refine ⟨hlt, ?_⟩
  cases hd : decode (tableSlot (BitVec.ofNat 32 w)) (BitVec.ofNat 32 w) with
  | ok j =>
    rw [hd] at h
    exact congrArg _ (Option.some.inj h)
  | error r =>
    rw [hd] at h
    cases h

theorem tableEvent_of_lt {nbits w : Nat} (h : w < 2 ^ nbits) :
    tableEvent nbits w = .hostWrite (tableSlot (BitVec.ofNat 32 w)) (BitVec.ofNat 32 w) := by
  rw [tableEvent, Nat.mod_eq_of_lt h]

/-- Settles O8: `withFetchWord` puts the write of the word, on the slot it is taken for, before the agenda. -/
theorem fetchWordRunsTheTableInstruction : Obligations.FetchWordRunsTheTableInstruction := by
  unfold Obligations.FetchWordRunsTheTableInstruction
  intro s nbits w i h
  obtain ⟨hlt, hd⟩ := lt_and_decode_of_decodeTableWord h
  have ha : (s.withFetchWord nbits w).agenda =
      .hostWrite (tableSlot (BitVec.ofNat 32 w)) (BitVec.ofNat 32 w) :: s.agenda := by
    rw [State.withFetchWord_agenda, tableEvent_of_lt hlt]
  exact ⟨_, hd, step_hostWrite_of_decode_ok ha hd⟩

/-! ### The step of every other event -/

theorem runNothing_of_ne_fault {s : State} (hp : s.ph ≠ .fault) : runNothing s = .next s := if_neg hp

theorem runNothing_of_fault {s : State} (hp : s.ph = .fault) :
    runNothing s = .fault (.faultPhase s.fcause) := if_pos hp

theorem step_aesAnswer {s : State} {rest : List Event} (h : s.agenda = .aesAnswer :: rest) :
    step s = .next (engineAnswers (s.withAgenda rest)) := step_cons h

theorem step_aesResp {s : State} {r : Bytes 16} {rest : List Event} (h : s.agenda = .aesResp r :: rest) :
    step s = .next (answerArrives r (s.withAgenda rest)) := step_cons h

/-- Settles O9: each event's own step, on the state with the event taken from the agenda. -/
theorem stepRunsEveryOtherEvent : Obligations.StepRunsEveryOtherEvent := by
  unfold Obligations.StepRunsEveryOtherEvent
  exact fun s =>
    ⟨fun ha hp => (step_nil ha).trans (runNothing_of_ne_fault hp),
      fun ha hp => (step_nil ha).trans (runNothing_of_fault hp),
      fun _ => ⟨step_aesAccept, step_aesAnswer, fun _ => step_aesResp, step_take, step_reset⟩⟩

/-! ### Every host operation completes -/

/-- What an instruction does when it is examined in IDLE (R120 to R127). -/
def examined : Instr → State → State
  | .loadkey => loadkeyExamined
  | .deriveSeal => deriveExamined (State.raiseTrap 1)
  | .deriveOpen => deriveExamined fun t => t.consume.raiseError 2
  | .flush => fun t => t.consume.dropCall
  | .zeroize => fun t => { t.consume.dropCall with masterKey := zeros 32, k1 := zeros 16, kv := false }
  | .push b => pushExamined b

/-- Every instruction passes the gate by phase (R120, R121). -/
theorem exec_eq_hostGate (i : Instr) (s : State) : exec i s = .next (hostGate (examined i) s) := by
  cases i <;> rfl

theorem memWrite_completes (w : Slot) (v : Word) (s : State) : ∃ t, memWrite w v s = .next t := by
  by_cases hw : w = 2 ∨ w = 3
  · obtain ⟨f, hf⟩ := memWrite_gated hw v
    exact ⟨_, hf s⟩
  · obtain ⟨h2, h3⟩ := not_or.mp hw
    exact ⟨s, memWrite_otherSlot h2 h3 v s⟩

/-- Settles O10: the gate always lets a next state out, and a write of another slot is ignored. -/
theorem everyHostOperationCompletes : Obligations.EveryHostOperationCompletes := by
  unfold Obligations.EveryHostOperationCompletes
  exact ⟨fun i s => ⟨_, exec_eq_hostGate i s⟩, memWrite_completes⟩

end Sys2Proof.Machine

/-! SUPPORT. The frames of the host operations (10_state.md R27; 41_host_commands.md R120 to R129), and where the
two derive commands differ (R182). -/

namespace Sys2Proof.Machine

/-! ### The operations by phase -/

/-- Outside IDLE the gate changes at most OVR, whatever the operation. -/
theorem hostGate_of_ne_idle {s : State} (hp : s.ph ≠ .idle) :
    ∃ o, ∀ f, hostGate f s = { s with ovr := o } := by
  rcases Phase.trichotomy s.ph with h | h | h
  · exact absurd h hp
  · exact ⟨s.ovr, hostGate_fault h⟩
  · exact ⟨true, hostGate_busy h⟩

/-- Everything an instruction can do: it is examined in IDLE, and changes at most OVR in every other phase. -/
theorem exec_cases {i : Instr} {s t : State} (h : exec i s = .next t) :
    (s.ph = .idle ∧ t = examined i s) ∨ (s.ph ≠ .idle ∧ ∃ o, t = { s with ovr := o }) := by
  obtain rfl := Host.Outcome.next.inj ((exec_eq_hostGate i s).symm.trans h)
  by_cases hp : s.ph = .idle
  · exact .inl ⟨hp, hostGate_idle hp _⟩
  · obtain ⟨o, ho⟩ := hostGate_of_ne_idle hp
    exact .inr ⟨hp, o, ho _⟩

/-! ### What each operation leaves unchanged, examined in IDLE -/

theorem loadkeyExamined_frame (s : State) :
    (loadkeyExamined s).engine = s.engine ∧ (loadkeyExamined s).agenda = s.agenda ∧
    (loadkeyExamined s).trace = s.trace ∧ (loadkeyExamined s).nonce = s.nonce ∧
    (loadkeyExamined s).dk = s.dk ∧ (loadkeyExamined s).dkv = s.dkv ∧
    (loadkeyExamined s).fcause = s.fcause ∧ (loadkeyExamined s).ovr = s.ovr := by
  rcases loadkeyExamined_cases s with ⟨-, g⟩ | ⟨-, -, g⟩ | ⟨-, -, g⟩ <;> simp [g]

/-- LOADKEY touches the key only when it is accepted, and then it leaves IDLE (R123). -/
theorem loadkeyExamined_key {s : State} (hp : s.ph = .idle) (h : (loadkeyExamined s).ph = s.ph) :
    (loadkeyExamined s).masterKey = s.masterKey ∧ (loadkeyExamined s).k1 = s.k1 ∧
    (loadkeyExamined s).kv = s.kv := by
  rcases loadkeyExamined_cases s with ⟨-, g⟩ | ⟨-, -, g⟩ | ⟨-, -, g⟩
  iterate 2 simp [g]
  simp [g, hp] at h

theorem deriveExamined_environment {wrongLength : State → State} {s : State}
    (hw : (wrongLength s).engine = s.engine ∧ (wrongLength s).agenda = s.agenda ∧
      (wrongLength s).trace = s.trace) :
    (deriveExamined wrongLength s).engine = s.engine ∧ (deriveExamined wrongLength s).agenda = s.agenda ∧
    (deriveExamined wrongLength s).trace = s.trace := by
  rcases deriveExamined_cases wrongLength s with ⟨-, g⟩ | ⟨-, -, g⟩ | ⟨-, -, -, g⟩ | ⟨-, -, -, g⟩ <;> rw [g]
  case inr.inr.inl => exact hw
  all_goals exact ⟨rfl, rfl, rfl⟩

/-- No host operation touches the engine's request or the model's own lists. -/
theorem examined_environment (i : Instr) (s : State) :
    (examined i s).engine = s.engine ∧ (examined i s).agenda = s.agenda ∧ (examined i s).trace = s.trace := by
  cases i with
  | loadkey =>
    obtain ⟨he, ha, ht, -⟩ := loadkeyExamined_frame s
    exact ⟨he, ha, ht⟩
  | deriveSeal | deriveOpen => exact deriveExamined_environment ⟨rfl, rfl, rfl⟩
  | flush | zeroize | push => exact ⟨rfl, rfl, rfl⟩

/-- What a derive command that does not trap leaves unchanged (R124, R125). -/
structure DeriveFrame (s t : State) : Prop where
  masterKey : t.masterKey = s.masterKey
  k1 : t.k1 = s.k1
  dk : t.dk = s.dk
  kv : t.kv = s.kv
  dkv : t.dkv = s.dkv
  fcause : t.fcause = s.fcause
  ovr : s.ph = .idle → t.ovr = s.ovr
  nonce : t.ph = s.ph → t.nonce = s.nonce

theorem consume_raiseError_deriveFrame (c : BitVec 4) (s : State) :
    DeriveFrame s (s.consume.raiseError c) := ⟨rfl, rfl, rfl, rfl, rfl, rfl, fun _ => rfl, fun _ => rfl⟩

theorem startDerivation_deriveFrame {s : State} (hp : s.ph = .idle) : DeriveFrame s (startDerivation s) :=
  ⟨rfl, rfl, rfl, rfl, rfl, rfl, fun _ => rfl, fun h => by simp [hp] at h⟩

theorem deriveExamined_deriveFrame {wrongLength : State → State} {s : State} (hp : s.ph = .idle)
    (hw : WrongNonceLength s → DeriveFrame s (wrongLength s)) :
    DeriveFrame s (deriveExamined wrongLength s) := by
  rcases deriveExamined_cases wrongLength s with
    ⟨-, g⟩ | ⟨-, -, g⟩ | ⟨hd, hk, hl, g⟩ | ⟨-, -, -, g⟩ <;> rw [g]
  · exact consume_raiseError_deriveFrame 5 s
  · exact consume_raiseError_deriveFrame 4 s
  · exact hw ⟨hd, hk, hl⟩
  · exact startDerivation_deriveFrame hp

/-! ### The frames in every phase -/

section Frames

variable {s t : State}

theorem exec_environment {i : Instr} (h : exec i s = .next t) :
    t.engine = s.engine ∧ t.agenda = s.agenda ∧ t.trace = s.trace := by
  rcases exec_cases h with ⟨-, rfl⟩ | ⟨-, o, rfl⟩
  · exact examined_environment i s
  · exact ⟨rfl, rfl, rfl⟩

theorem exec_push_frame {b : Byte} (h : exec (.push b) s = .next t) :
    t.masterKey = s.masterKey ∧ t.k1 = s.k1 ∧ t.nonce = s.nonce ∧ t.dk = s.dk ∧ t.kv = s.kv ∧
    t.dkv = s.dkv ∧ t.err = s.err ∧ t.fcause = s.fcause ∧ t.ph = s.ph ∧
    (s.ph = .idle → t.ovr = s.ovr) ∧ (s.ph ≠ .idle → t.ibuf = s.ibuf ∧ t.ilen = s.ilen) ∧
    ∀ (j : Nat) (h : j < 32), j ≠ s.ilen.toNat → t.ibuf[j] = s.ibuf[j] := by
  rcases exec_cases h with ⟨hp, rfl⟩ | ⟨hp, o, rfl⟩
  · exact ⟨rfl, rfl, rfl, rfl, rfl, rfl, rfl, rfl, rfl, fun _ => rfl, absurd hp,
      fun j hj hne => (getElem_storedByte s b j hj).trans (if_neg hne)⟩
  · exact ⟨rfl, rfl, rfl, rfl, rfl, rfl, rfl, rfl, rfl, fun hi => absurd hi hp, fun _ => ⟨rfl, rfl⟩,
      fun _ _ _ => rfl⟩

theorem exec_loadkey_frame (h : exec .loadkey s = .next t) :
    t.nonce = s.nonce ∧ t.dk = s.dk ∧ t.dkv = s.dkv ∧ t.fcause = s.fcause ∧
    (s.ph = .idle → t.ovr = s.ovr) ∧
    (t.ph = s.ph → t.masterKey = s.masterKey ∧ t.k1 = s.k1 ∧ t.kv = s.kv) := by
  rcases exec_cases h with ⟨hp, rfl⟩ | ⟨hp, o, rfl⟩
  · obtain ⟨-, -, -, hn, hdk, hdkv, hf, ho⟩ := loadkeyExamined_frame s
    exact ⟨hn, hdk, hdkv, hf, fun _ => ho, loadkeyExamined_key hp⟩
  · exact ⟨rfl, rfl, rfl, rfl, fun hi => absurd hi hp, fun _ => ⟨rfl, rfl, rfl⟩⟩

theorem exec_derive_frame {i : Instr} (h : exec i s = .next t)
    (hi : i = .deriveOpen ∨ (i = .deriveSeal ∧ (t.ph = .fault → s.ph = .fault))) : DeriveFrame s t := by
  rcases exec_cases h with ⟨hp, rfl⟩ | ⟨hp, o, rfl⟩
  · rcases hi with rfl | ⟨rfl, hf⟩
    · exact deriveExamined_deriveFrame (wrongLength := fun t => t.consume.raiseError 2) hp
        fun _ => consume_raiseError_deriveFrame 2 s
    · refine deriveExamined_deriveFrame hp fun ⟨hd, hk, hl⟩ => ?_
      rw [examined, deriveExamined_of_wrongLength _ hd hk hl] at hf
      exact nomatch hp.symm.trans (hf rfl)
  · exact ⟨rfl, rfl, rfl, rfl, rfl, rfl, fun hi => absurd hi hp, fun _ => rfl⟩

theorem exec_flush_frame (h : exec .flush s = .next t) :
    t.masterKey = s.masterKey ∧ t.k1 = s.k1 ∧ t.kv = s.kv ∧ t.fcause = s.fcause ∧ t.ph = s.ph := by
  rcases exec_cases h with ⟨-, rfl⟩ | ⟨-, o, rfl⟩ <;> exact ⟨rfl, rfl, rfl, rfl, rfl⟩

theorem exec_zeroize_frame (h : exec .zeroize s = .next t) : t.fcause = s.fcause ∧ t.ph = s.ph := by
  rcases exec_cases h with ⟨-, rfl⟩ | ⟨-, o, rfl⟩ <;> exact ⟨rfl, rfl⟩

theorem exec_frame_of_ne_idle {i : Instr} (h : exec i s = .next t) (hp : s.ph ≠ .idle) :
    t.ibuf = s.ibuf ∧ t.ilen = s.ilen ∧ t.masterKey = s.masterKey ∧ t.k1 = s.k1 ∧
    t.nonce = s.nonce ∧ t.dk = s.dk ∧ t.kv = s.kv ∧ t.dkv = s.dkv ∧ t.err = s.err ∧
    t.fcause = s.fcause ∧ t.ph = s.ph := by
  rcases exec_cases h with ⟨hi, -⟩ | ⟨-, o, rfl⟩
  · exact absurd hi hp
  · exact ⟨rfl, rfl, rfl, rfl, rfl, rfl, rfl, rfl, rfl, rfl, rfl⟩

end Frames

/-- Settles O24: the frame of each operation, examined in IDLE and behind the gate in every other phase. -/
theorem hostOperationFrames : Obligations.HostOperationFrames := by
  unfold Obligations.HostOperationFrames
  intro i s t h
  obtain ⟨hengine, hagenda, htrace⟩ := exec_environment h
  refine ⟨hengine, hagenda, htrace, ?_, ?_, fun hi => ?_, ?_, ?_, fun _ => exec_frame_of_ne_idle h⟩
  · rintro b rfl
    exact exec_push_frame h
  · rintro rfl
    exact exec_loadkey_frame h
  · obtain ⟨hmk, hk1, hdk, hkv, hdkv, hf, ho, hn⟩ := exec_derive_frame h hi
    exact ⟨hmk, hk1, hdk, hkv, hdkv, hf, ho, hn⟩
  · rintro rfl
    exact exec_flush_frame h
  · rintro rfl
    exact exec_zeroize_frame h

/-! ### The two derive commands -/

/-- Outside IDLE all instructions are one (R129). -/
theorem exec_congr_of_ne_idle {s : State} (hp : s.ph ≠ .idle) (i j : Instr) : exec i s = exec j s := by
  obtain ⟨o, ho⟩ := hostGate_of_ne_idle hp
  rw [exec_eq_hostGate, exec_eq_hostGate, ho, ho]

/-- Settles O18: outside IDLE the gate hides the command, and in IDLE only a wrong length shows it. -/
theorem sealAndOpenDifferOnlyInTheTrap : Obligations.SealAndOpenDifferOnlyInTheTrap := by
  unfold Obligations.SealAndOpenDifferOnlyInTheTrap
  intro s
  by_cases hp : s.ph = .idle
  · rw [exec_deriveSeal_idle hp, exec_deriveOpen_idle hp]
    by_cases hw : s.dkv = true ∨ s.kv = false ∨ s.ilen = 24
    · exact .inl (congrArg _ (deriveExamined_congr _ _ hw))
    · simp only [not_or, Bool.not_eq_true, Bool.not_eq_false] at hw
      obtain ⟨hd, hk, hl⟩ := hw
      rw [deriveExamined_of_wrongLength _ hd hk hl, deriveExamined_of_wrongLength _ hd hk hl]
      exact .inr ⟨hp, hd, hk, hl, _, _, rfl, rfl, rfl, hp, hk, rfl, rfl⟩
  · exact .inl (exec_congr_of_ne_idle hp _ _)

end Sys2Proof.Machine

/-! SUPPORT. Answers folded by phase (42_sequencer_steps.md R152 to R156), the fused AES call (R159), both
orders of a write and an answer (20_memory.md R67), and what the two nonce halves influence (R111). -/

namespace Sys2Proof.Machine

/-! ### Answers -/

theorem getElem_withLowHalf_of_lt (dk : Bytes 32) (r : Bytes 16) (j : Nat) (h : j < 16) :
    (withLowHalf dk r)[j] = r[j] := by
  simp [withLowHalf, h]

theorem getElem_withLowHalf_of_ge (dk : Bytes 32) (r : Bytes 16) (j : Nat) (h : j < 32) (hj : 16 ≤ j) :
    (withLowHalf dk r)[j] = dk[j] := by
  simp [withLowHalf, Nat.not_lt.mpr hj, Nat.add_sub_cancel' hj]

theorem getElem_withHighHalf_of_lt (dk : Bytes 32) (r : Bytes 16) (j : Nat) (h : j < 16) :
    (withHighHalf dk r)[j] = dk[j] := by
  simp [withHighHalf, h]

theorem getElem_withHighHalf_add (dk : Bytes 32) (r : Bytes 16) (j : Nat) (h : j < 16) :
    (withHighHalf dk r)[16 + j] = r[j] := by
  simp [withHighHalf]

theorem answerArrives_engine (r : Bytes 16) (s : State) : (answerArrives r s).engine = none := by
  rcases answerArrives_cases r s with ⟨-, g⟩ | ⟨-, g⟩ | ⟨-, g⟩ | ⟨-, -, -, g⟩ <;> rw [g] <;> rfl

theorem answerArrives_agenda (r : Bytes 16) (s : State) : (answerArrives r s).agenda = s.agenda := by
  rcases answerArrives_cases r s with ⟨-, g⟩ | ⟨-, g⟩ | ⟨-, g⟩ | ⟨-, -, -, g⟩ <;> rw [g] <;> rfl

theorem answerArrives_initWait {s : State} (hp : s.ph = .initWait) (r : Bytes 16) :
    answerArrives r s = seqInitResp r (afterAnswer r s) := by
  simp only [answerArrives, takeAnswer, afterAnswer, State.record_ph, hp]

theorem answerArrives_drv1Wait {s : State} (hp : s.ph = .drv1Wait) (r : Bytes 16) :
    answerArrives r s = seqDrv1Resp r (afterAnswer r s) := by
  simp only [answerArrives, takeAnswer, afterAnswer, State.record_ph, hp]

theorem answerArrives_drv2Wait {s : State} (hp : s.ph = .drv2Wait) (r : Bytes 16) :
    answerArrives r s = seqDrv2Resp r (afterAnswer r s) := by
  simp only [answerArrives, takeAnswer, afterAnswer, State.record_ph, hp]

theorem answerArrives_unawaited {s : State} (h1 : s.ph ≠ .initWait) (h2 : s.ph ≠ .drv1Wait)
    (h3 : s.ph ≠ .drv2Wait) (r : Bytes 16) : answerArrives r s = afterAnswer r s := by
  rcases answerArrives_cases r s with ⟨hp, -⟩ | ⟨hp, -⟩ | ⟨hp, -⟩ | ⟨-, -, -, g⟩
  · exact absurd hp h1
  · exact absurd hp h2
  · exact absurd hp h3
  · exact g

/-- Settles O26: the three phases in which an answer is folded, each with the bytes it writes, and the others. -/
theorem answersAreFoldedByPhase : Obligations.AnswersAreFoldedByPhase := by
  unfold Obligations.AnswersAreFoldedByPhase
  intro s r rest ha
  refine ⟨answerArrives r (s.withAgenda rest), step_aesResp ha, answerArrives_agenda r _,
    answerArrives_trace r _, answerArrives_engine r _, fun hp => ?_, fun hp => ?_, fun hp => ?_,
    fun h1 h2 h3 => ?_⟩
  · rw [answerArrives_initWait (s := s.withAgenda rest) hp]
    exact sameBlock_setEnvironment { s with k1 := dbl r, kv := true, ph := .idle } _ _ _
  · rw [answerArrives_drv1Wait (s := s.withAgenda rest) hp]
    exact ⟨sameBlock_setEnvironment { s with dk := withLowHalf s.dk r, ph := .drv2Req } _ _ _,
      getElem_withLowHalf_of_lt s.dk r, getElem_withLowHalf_of_ge s.dk r⟩
  · rw [answerArrives_drv2Wait (s := s.withAgenda rest) hp]
    exact ⟨sameBlock_setEnvironment { s with dk := withHighHalf s.dk r, dkv := true, ph := .idle } _ _ _,
      getElem_withHighHalf_add s.dk r, getElem_withHighHalf_of_lt s.dk r⟩
  · rw [answerArrives_unawaited (s := s.withAgenda rest) h1 h2 h3]
    exact sameBlock_setEnvironment s _ _ _

/-! ### The fused AES call -/

/-- The state after an AES call of the block `b`, before its answer is folded (R159). -/
def afterCall (b : Bytes 16) (s : State) : State :=
  { s with
    engine := none
    trace := .aesResp (Config.AESENC s.masterKey b) :: .aesReq s.masterKey b :: s.trace }

@[simp] theorem afterCall_ibuf (b : Bytes 16) (s : State) : (afterCall b s).ibuf = s.ibuf := rfl
@[simp] theorem afterCall_ilen (b : Bytes 16) (s : State) : (afterCall b s).ilen = s.ilen := rfl
@[simp] theorem afterCall_masterKey (b : Bytes 16) (s : State) : (afterCall b s).masterKey = s.masterKey := rfl
@[simp] theorem afterCall_k1 (b : Bytes 16) (s : State) : (afterCall b s).k1 = s.k1 := rfl
@[simp] theorem afterCall_nonce (b : Bytes 16) (s : State) : (afterCall b s).nonce = s.nonce := rfl
@[simp] theorem afterCall_dk (b : Bytes 16) (s : State) : (afterCall b s).dk = s.dk := rfl
@[simp] theorem afterCall_kv (b : Bytes 16) (s : State) : (afterCall b s).kv = s.kv := rfl
@[simp] theorem afterCall_dkv (b : Bytes 16) (s : State) : (afterCall b s).dkv = s.dkv := rfl
@[simp] theorem afterCall_ovr (b : Bytes 16) (s : State) : (afterCall b s).ovr = s.ovr := rfl
@[simp] theorem afterCall_err (b : Bytes 16) (s : State) : (afterCall b s).err = s.err := rfl
@[simp] theorem afterCall_fcause (b : Bytes 16) (s : State) : (afterCall b s).fcause = s.fcause := rfl
@[simp] theorem afterCall_ph (b : Bytes 16) (s : State) : (afterCall b s).ph = s.ph := rfl
@[simp] theorem afterCall_agenda (b : Bytes 16) (s : State) : (afterCall b s).agenda = s.agenda := rfl
@[simp] theorem afterCall_engine (b : Bytes 16) (s : State) : (afterCall b s).engine = none := rfl
@[simp] theorem afterCall_trace (b : Bytes 16) (s : State) : (afterCall b s).trace =
    .aesResp (Config.AESENC s.masterKey b) :: .aesReq s.masterKey b :: s.trace := rfl

theorem aesCall_initReq {s : State} (hp : s.ph = .initReq) :
    aesCall s = seqInitResp (Config.AESENC s.masterKey zeroBlock) (afterCall zeroBlock s) := by
  simp only [aesCall, hp, afterCall]

theorem aesCall_drv1Req {s : State} (hp : s.ph = .drv1Req) :
    aesCall s =
      seqDrv1Resp (Config.AESENC s.masterKey (requestX .first s)) (afterCall (requestX .first s) s) := by
  simp only [aesCall, hp, afterCall]

theorem aesCall_drv2Req {s : State} (hp : s.ph = .drv2Req) :
    aesCall s =
      seqDrv2Resp (Config.AESENC s.masterKey (requestX .second s)) (afterCall (requestX .second s) s) := by
  simp only [aesCall, hp, afterCall]

/-- The engine answers the request it has just accepted. -/
theorem engineAnswers_acceptRequest (b : Bytes 16) (p : Phase) (s : State) :
    engineAnswers (acceptRequest b p s) =
      answerArrives (Config.AESENC s.masterKey b) (acceptRequest b p s) := rfl

theorem engineAnswers_engineReady {s : State} (h : aReqValid s = true) :
    engineAnswers (engineReady s) = aesCall s := by
  rcases (aReqValid_iff s).mp h with hp | hp | hp
  · rw [engineReady_initReq hp, engineAnswers_acceptRequest, answerArrives_initWait rfl, aesCall_initReq hp]
    rfl
  · rw [engineReady_drv1Req hp, engineAnswers_acceptRequest, answerArrives_drv1Wait rfl, aesCall_drv1Req hp]
    rfl
  · rw [engineReady_drv2Req hp, engineAnswers_acceptRequest, answerArrives_drv2Wait rfl, aesCall_drv2Req hp]
    rfl

/-- Settles O31: in each request phase the acceptance captures the request that the answer then answers. -/
theorem requestThenAnswerIsOneAesCall : Obligations.RequestThenAnswerIsOneAesCall := by
  unfold Obligations.RequestThenAnswerIsOneAesCall
  exact fun _ => engineAnswers_engineReady

/-! ### Both orders of a FLUSH and an answer -/

theorem run_two {s t u : State} (hst : step s = .next t) (htu : step t = .next u) :
    Host.Core.run Sys2Proof.core 2 s = .next u := by
  rw [run_succ hst, run_succ htu]
  rfl

theorem step_flush_busy {s : State} {rest : List Event} (ha : s.agenda = .hostWrite 2 4 :: rest)
    (hb : s.ph.busy = true) :
    step s = .next { (s.withAgenda rest).record (.hostWrite 2 4) with ovr := true } := by
  rw [step_hostWrite ha]
  exact memWrite_busy (s := (s.withAgenda rest).record (.hostWrite 2 4)) (.inl rfl) hb 4

theorem step_flush_idle {s : State} {rest : List Event} (ha : s.agenda = .hostWrite 2 4 :: rest)
    (hp : s.ph = .idle) :
    step s = .next ((s.withAgenda rest).record (.hostWrite 2 4)).consume.dropCall := by
  rw [step_hostWrite_of_decode_ok ha (i := .flush) (by decide)]
  exact exec_flush_idle hp

theorem step_aesResp_initWait {s : State} {r : Bytes 16} {rest : List Event}
    (ha : s.agenda = .aesResp r :: rest) (hp : s.ph = .initWait) :
    step s = .next (seqInitResp r (afterAnswer r (s.withAgenda rest))) := by
  rw [step_aesResp ha, answerArrives_initWait (s := s.withAgenda rest) hp]

/-- Settles O33: before the answer the block is busy and drops the FLUSH, after it the block is idle. -/
theorem orderOfWriteAndAnswerMatters : Obligations.OrderOfWriteAndAnswerMatters := by
  unfold Obligations.OrderOfWriteAndAnswerMatters
  intro s L rest hp
  have hb : (s.withAgenda (.hostWrite 2 4 :: .aesResp L :: rest)).ph.busy = true := by
    rw [State.withAgenda_ph, hp]
    rfl
  have hdropped := step_flush_busy (s := s.withAgenda (.hostWrite 2 4 :: .aesResp L :: rest)) rfl hb
  have hanswered := step_aesResp_initWait (s := s.withAgenda (.aesResp L :: .hostWrite 2 4 :: rest)) rfl hp
  constructor
  · refine ⟨_, run_two hdropped (step_aesResp_initWait (rest := rest) rfl hp), ?_⟩
    simp
  · refine ⟨_, run_two hanswered (step_flush_idle (rest := rest) rfl rfl), ?_⟩
    simp

/-! ### The nonce halves -/

/-- Settles O42: the nonce enters the DerivedKey by N1 only, and what is delivered beside it is N2. -/
theorem nonceHalvesDoNotMix : Obligations.NonceHalvesDoNotMix := by
  unfold Obligations.NonceHalvesDoNotMix
  intro MK K1 N M
  refine ⟨fun h => ?_, id, rfl⟩
  simp only [derive, h]

end Sys2Proof.Machine

/-! SUPPORT. The laws of the doubler (40_doubler_and_blocks.md R103): on the 128-bit bus it is linear over XOR and
has an inverse, and read as a polynomial over GF(2) it is the product by x, reduced. -/

namespace Sys2Proof.Machine

/-! ### The bus and XOR -/

theorem bus_injective {n : Nat} : Function.Injective (bus (n := n)) :=
  Function.LeftInverse.injective ofBus_bus

theorem bus_xor16 (A B : Bytes 16) : bus (xor16 A B) = bus A ^^^ bus B := by
  apply ofBus_injective
  apply Vector.ext
  intro i hi
  rw [ofBus_bus, getElem_xor16, getElem_ofBus, BitVec.extractLsb'_xor, extractLsb'_bus A i hi,
    extractLsb'_bus B i hi]

/-! ### R103 (a) to (d) -/

/-- A bit that is an XOR selects the XOR of what its two operands select. -/
theorem ite_xor (p q : Bool) (c : BitVec 128) :
    (if (p ^^ q) = true then c else 0) = (if p = true then c else 0) ^^^ (if q = true then c else 0) := by
  cases p <;> cases q <;> simp

theorem dbl_xor16 (A B : Bytes 16) : dbl (xor16 A B) = xor16 (dbl A) (dbl B) := by
  apply bus_injective
  rw [bus_xor16, bus_dbl, bus_dbl, bus_dbl, bus_xor16, BitVec.shiftLeft_xor_distrib, BitVec.getLsbD_xor, ite_xor]
  ac_rfl

/-- The zero string is the XOR of any string with itself. -/
theorem dbl_zeros : dbl (zeros 16) = zeros 16 := by
  have h := dbl_xor16 (zeros 16) (zeros 16)
  rwa [xor16_self, xor16_self] at h

theorem getLsbD_zero_dbl_last (L : Bytes 16) : (dbl L)[15].getLsbD 0 = L[0].getLsbD 7 := by
  rw [getElem_dbl_last, BitVec.getLsbD_xor]
  cases L[0].getLsbD 7 <;> simp

/-- With the top bit clear the shift loses nothing and nothing is reduced. -/
theorem byteInt_dbl_of_top_clear {L : Bytes 16} (h : L[0].getLsbD 7 = false) :
    byteInt (dbl L) = 2 * byteInt L := by
  have htop : (byteInt L).testBit 127 = false := by
    rw [← toNat_bus, BitVec.testBit_toNat, getLsbD_127_bus, h]
  have hlt : byteInt L < 2 ^ 128 := byteInt_lt L
  have hhalf : 2 * byteInt L < 2 ^ 128 := by
    rw [Nat.testBit_eq_decide_div_mod_eq] at htop
    simp only [decide_eq_false_iff_not] at htop
    omega
  rw [doublerOnIntegers L, htop, Nat.mod_eq_of_lt hhalf]
  exact Nat.xor_zero _

/-- Settles O37: linearity on the bus, which gives the zero; the last byte, and the integer, by the top bit. -/
theorem doublerLaws : Obligations.DoublerLaws := by
  unfold Obligations.DoublerLaws
  exact ⟨dbl_zeros, getLsbD_zero_dbl_last, fun _ => byteInt_dbl_of_top_clear, dbl_xor16⟩

/-! ### R103 (e): the inverse -/

/-- Undoing the reduction and shifting back, with bit 0 put in as the top bit. -/
theorem bus_dblInverse (D : Bytes 16) :
    bus (dblInverse D) =
      ((bus D ^^^ (if (bus D).getLsbD 0 then reduction else 0)) >>> 1) |||
        (if (bus D).getLsbD 0 then BitVec.twoPow 128 127 else 0) := by
  rw [dblInverse, bus_ofBus (n := 16)]
  cases (bus D).getLsbD 0 <;> rfl

/-- Shifting left and back loses the top bit only. -/
theorem shiftLeft_ushiftRight_or_top (n : BitVec 128) :
    ((n <<< 1) >>> 1) ||| (if n.getLsbD 127 then BitVec.twoPow 128 127 else 0) = n := by
  apply BitVec.eq_of_getLsbD_eq
  intro i hi
  have htop : (if n.getLsbD 127 then BitVec.twoPow 128 127 else 0).getLsbD i =
      (n.getLsbD 127 && decide (127 = i)) := by
    cases n.getLsbD 127 <;> simp
  rw [BitVec.getLsbD_or, BitVec.getLsbD_ushiftRight, BitVec.getLsbD_shiftLeft, htop, Nat.add_sub_cancel_left]
  by_cases h : 127 = i
  · subst h
    simp
  · have hlow : 1 + i < 128 := by omega
    simp [hlow, h]

/-- Shifting right and back loses bit 0 only. -/
theorem ushiftRight_shiftLeft_of_even {n : BitVec 128} (h : n.getLsbD 0 = false) : (n >>> 1) <<< 1 = n := by
  apply BitVec.eq_of_getLsbD_eq
  intro i hi
  rw [BitVec.getLsbD_shiftLeft, BitVec.getLsbD_ushiftRight]
  cases i with
  | zero =>
    rw [h]
    rfl
  | succ i => simp [hi, Nat.add_comm 1 i]

/-- Bit 0 of the double tells whether it was reduced: the constant is odd. -/
theorem getLsbD_zero_bus_dbl (L : Bytes 16) : (bus (dbl L)).getLsbD 0 = (bus L).getLsbD 127 := by
  rw [bus_dbl, BitVec.getLsbD_xor]
  cases (bus L).getLsbD 127 <;> simp

/-- The top bit of the inverse is bit 0 of its argument: the shift right leaves the top bit clear. -/
theorem getLsbD_127_bus_dblInverse (D : Bytes 16) :
    (bus (dblInverse D)).getLsbD 127 = (bus D).getLsbD 0 := by
  rw [bus_dblInverse, BitVec.getLsbD_or, BitVec.getLsbD_ushiftRight]
  cases (bus D).getLsbD 0 <;> simp

theorem dblInverse_dbl (L : Bytes 16) : dblInverse (dbl L) = L := by
  apply bus_injective
  rw [bus_dblInverse, getLsbD_zero_bus_dbl, bus_dbl, BitVec.xor_assoc, BitVec.xor_self, BitVec.xor_zero]
  exact shiftLeft_ushiftRight_or_top (bus L)

theorem dbl_dblInverse (D : Bytes 16) : dbl (dblInverse D) = D := by
  have heven : (bus D ^^^ (if (bus D).getLsbD 0 then reduction else 0)).getLsbD 0 = false := by
    rw [BitVec.getLsbD_xor]
    cases (bus D).getLsbD 0 <;> simp
  have htop : (if (bus D).getLsbD 0 then BitVec.twoPow 128 127 else 0) <<< 1 = 0#128 := by
    cases (bus D).getLsbD 0 <;> decide
  apply bus_injective
  rw [bus_dbl, getLsbD_127_bus_dblInverse, bus_dblInverse, BitVec.shiftLeft_or_distrib,
    ushiftRight_shiftLeft_of_even heven, htop, BitVec.or_zero, BitVec.xor_assoc, BitVec.xor_self,
    BitVec.xor_zero]

/-- Settles O38: bit 0 of the double is the top bit that was shifted out, so each undoes the other. -/
theorem doublerIsABijection : Obligations.DoublerIsABijection := by
  unfold Obligations.DoublerIsABijection
  exact fun L => ⟨dblInverse_dbl L, dbl_dblInverse L⟩

/-! ### R103 (f): multiplication by x -/

section Polynomial

open Polynomial

/-- A bus value as a polynomial over GF(2): bit `k` is the coefficient of `x ^ k`. -/
noncomputable def busPoly (n : BitVec 128) : (ZMod 2)[X] :=
  ∑ k ∈ Finset.range 128, if n.getLsbD k then X ^ k else 0

/-- The polynomial that the doubler reduces by. Irreducible, so that comparing polynomials never unfolds its
powers. -/
@[irreducible] noncomputable def modulus : (ZMod 2)[X] := X ^ 128 + X ^ 7 + X ^ 2 + X + 1

theorem degree_modulus : modulus.degree = 128 := by
  unfold modulus
  compute_degree!

theorem monic_modulus : modulus.Monic := by
  unfold modulus
  monicity!

theorem degree_busPoly_lt (n : BitVec 128) : (busPoly n).degree < 128 := by
  have hmem : busPoly n ∈ degreeLT (ZMod 2) 128 := by
    refine Submodule.sum_mem _ fun k hk => ?_
    rw [mem_degreeLT]
    split_ifs
    · rw [degree_X_pow]
      exact_mod_cast Finset.mem_range.mp hk
    · rw [degree_zero]
      exact WithBot.bot_lt_coe 128
  exact mem_degreeLT.mp hmem

theorem ite_xor_eq_add (p q : Bool) (f : (ZMod 2)[X]) :
    (if (p ^^ q) = true then f else 0) = (if p = true then f else 0) + (if q = true then f else 0) := by
  cases p <;> cases q <;> simp [CharTwo.add_self_eq_zero]

theorem busPoly_xor (m n : BitVec 128) : busPoly (m ^^^ n) = busPoly m + busPoly n := by
  rw [busPoly, busPoly, busPoly, ← Finset.sum_add_distrib]
  refine Finset.sum_congr rfl fun k _ => ?_
  rw [BitVec.getLsbD_xor, ite_xor_eq_add]

/-- Multiplying by x shifts the bits up, and the top bit out as `x ^ 128`. -/
theorem X_mul_busPoly (n : BitVec 128) :
    X * busPoly n = busPoly (n <<< 1) + if n.getLsbD 127 then X ^ 128 else 0 := by
  have hshift : busPoly (n <<< 1) = ∑ k ∈ Finset.range 127, if n.getLsbD k then X ^ (k + 1) else 0 := by
    rw [busPoly, Finset.sum_range_succ']
    simp only [BitVec.getLsbD_shiftLeft, Nat.add_sub_cancel]
    rw [if_neg (by simp), add_zero]
    refine Finset.sum_congr rfl fun k hk => ?_
    have hlt : k + 1 < 128 := by
      have := Finset.mem_range.mp hk
      omega
    simp [hlt]
  rw [hshift, busPoly, Finset.mul_sum, Finset.sum_range_succ]
  simp only [mul_ite, mul_zero, ← pow_succ']

theorem getLsbD_reduction_of_ge {k : Nat} (hk : 8 ≤ k) : reduction.getLsbD k = false := by
  apply Nat.testBit_lt_two_pow
  calc reduction.toNat < 2 ^ 8 := by decide
    _ ≤ 2 ^ k := Nat.pow_le_pow_right (by decide) hk

/-- The constant 0x87 has the bits 0, 1, 2 and 7. -/
theorem busPoly_reduction : busPoly reduction = X ^ 7 + X ^ 2 + X + 1 := by
  have hlow : busPoly reduction = ∑ k ∈ Finset.range 8, if reduction.getLsbD k then X ^ k else 0 := by
    refine (Finset.sum_subset (Finset.range_subset_range.mpr (by decide)) fun k _ hk => ?_).symm
    rw [getLsbD_reduction_of_ge (by simpa using hk), if_neg Bool.false_ne_true]
  have hbits : (Finset.range 8).filter (fun k => reduction.getLsbD k = true) = {7, 2, 1, 0} := by
    decide
  rw [hlow, ← Finset.sum_filter, hbits]
  simp [add_assoc]

/-- Over GF(2) the reduction is `x ^ 128` modulo the modulus. -/
theorem busPoly_reduction_add_modulus : busPoly reduction + modulus = X ^ 128 := by
  have hmodulus : modulus = X ^ 128 + busPoly reduction := by
    rw [busPoly_reduction]
    unfold modulus
    simp only [add_assoc]
  rw [hmodulus, add_left_comm, CharTwo.add_self_eq_zero, add_zero]

/-- `x * L` is the double of L, and the modulus once if the top bit was set. -/
theorem X_mul_busPoly_eq (L : Bytes 16) :
    busPoly (bus (dbl L)) + modulus * (if (bus L).getLsbD 127 then 1 else 0) = X * busPoly (bus L) := by
  rw [X_mul_busPoly, bus_dbl, busPoly_xor]
  cases (bus L).getLsbD 127
  · simp [busPoly]
  · rw [if_pos rfl, if_pos rfl, if_pos rfl, mul_one, add_assoc, busPoly_reduction_add_modulus]

theorem busPoly_dbl (L : Bytes 16) : busPoly (bus (dbl L)) = (X * busPoly (bus L)) %ₘ modulus := by
  have hdegree : (busPoly (bus (dbl L))).degree < modulus.degree := by
    rw [degree_modulus]
    exact degree_busPoly_lt _
  exact (div_modByMonic_unique _ _ monic_modulus ⟨X_mul_busPoly_eq L, hdegree⟩).2.symm

end Polynomial

/-- Settles O39: the double of L has degree below 128 and differs from `x * L` by a multiple of the modulus. -/
theorem doublerIsMultiplicationByX : Obligations.DoublerIsMultiplicationByX := by
  unfold Obligations.DoublerIsMultiplicationByX
  intro L
  have h := busPoly_dbl L
  unfold busPoly modulus at h
  exact h

end Sys2Proof.Machine

/-! SUPPORT. Runs: what a run keeps when no event that ends it is scheduled (20_memory.md R66;
70_reset_and_hazards.md R233). -/

namespace Sys2Proof.Machine

/-! ### What any run of events keeps -/

/-- An allowed event leads from a state with the property to a state with it. -/
def KeptUnder (allowed : Event → Prop) (P : State → Prop) : Prop :=
  ∀ ⦃s t : State⦄ ⦃e : Event⦄ (rest : List Event), allowed e → P s → Effect (s.withAgenda rest) e t → P t

/-- The scheduled events all happen, and what each of them keeps the run keeps. -/
theorem run_events (es : List Event) {s : State} {rest : List Event} (ha : s.agenda = es ++ rest) :
    ∃ t, Host.Core.run Sys2Proof.core es.length s = .next t ∧ t.agenda = rest ∧
      ∀ (allowed : Event → Prop) (P : State → Prop), KeptUnder allowed P →
        (∀ e ∈ es, allowed e) → P s → P t := by
  induction es generalizing s with
  | nil => exact ⟨s, rfl, ha, fun _ _ _ _ h => h⟩
  | cons e es ih =>
    obtain ⟨u, hu, he⟩ := step_effect (rest := es ++ rest) ha
    obtain ⟨t, ht, hrest, hkeeps⟩ := ih (he.agenda_eq.trans rfl)
    refine ⟨t, (run_succ hu _).trans ht, hrest, fun allowed P hP hes hs => ?_⟩
    obtain ⟨hfirst, hothers⟩ := List.forall_mem_cons.mp hes
    exact hkeeps allowed P hP hothers (hP _ hfirst hs he)

/-! ### A phase lasts until its event -/

/-- The block waits for the engine's answer (R62). -/
abbrev AwaitsAnswer (s : State) : Prop := s.ph = .initWait ∨ s.ph = .drv1Wait ∨ s.ph = .drv2Wait

/-- Outside IDLE only three events move the phase: reset, the acceptance of a presented request and an awaited
answer (R160). -/
theorem Effect.ph_of_ne_idle {s t : State} {e : Event} (he : Effect s e t) (hp : s.ph ≠ .idle) :
    t.ph = s.ph ∨ e = .reset ∨ (aReqValid s = true ∧ e = .aesAccept) ∨
      (AwaitsAnswer s ∧ (e = .aesAnswer ∨ ∃ r, e = .aesResp r)) := by
  cases he with
  | keyStarted hi | sealTrapped hi | deriveStarted _ hi => exact absurd hi hp
  | initReq h => exact .inr (.inr (.inl ⟨(aReqValid_iff s).mpr (.inl h), rfl⟩))
  | drv1Req h => exact .inr (.inr (.inl ⟨(aReqValid_iff s).mpr (.inr (.inl h)), rfl⟩))
  | drv2Req h => exact .inr (.inr (.inl ⟨(aReqValid_iff s).mpr (.inr (.inr h)), rfl⟩))
  | initResp h => exact .inr (.inr (.inr ⟨.inl h, .inr ⟨_, rfl⟩⟩))
  | drv1Resp h => exact .inr (.inr (.inr ⟨.inr (.inl h), .inr ⟨_, rfl⟩⟩))
  | drv2Resp h => exact .inr (.inr (.inr ⟨.inr (.inr h), .inr ⟨_, rfl⟩⟩))
  | initAnswer _ h => exact .inr (.inr (.inr ⟨.inl h, .inl rfl⟩))
  | drv1Answer _ h => exact .inr (.inr (.inr ⟨.inr (.inl h), .inl rfl⟩))
  | drv2Answer _ h => exact .inr (.inr (.inr ⟨.inr (.inr h), .inl rfl⟩))
  | reset => exact .inr (.inl rfl)
  | _ => exact .inl rfl

/-- The three kinds of phase outside IDLE exclude each other. -/
theorem not_awaitsAnswer_of_aReqValid {s : State} (h : aReqValid s = true) : ¬AwaitsAnswer s := by
  rcases (aReqValid_iff s).mp h with hp | hp | hp <;> simp [AwaitsAnswer, hp]

/-- A request not accepted stays presented (R233). -/
theorem request_kept {p : Phase} (hp : p = .initReq ∨ p = .drv1Req ∨ p = .drv2Req) :
    KeptUnder (fun e => e ≠ .reset ∧ e ≠ .aesAccept) fun s => s.ph = p := by
  rintro s t e rest ⟨hreset, haccept⟩ hs he
  have hreq : aReqValid (s.withAgenda rest) = true := (aReqValid_iff _).mpr (hs ▸ hp)
  have hidle : s.ph ≠ .idle := by
    rcases hp with rfl | rfl | rfl <;> simp [hs]
  rcases he.ph_of_ne_idle hidle with h | h | ⟨-, h⟩ | ⟨h, -⟩
  · exact h.trans hs
  · exact absurd h hreset
  · exact absurd h haccept
  · exact absurd h (not_awaitsAnswer_of_aReqValid hreq)

/-- An answer that has not come stays awaited (R233). -/
theorem awaited_kept {p : Phase} (hp : p = .initWait ∨ p = .drv1Wait ∨ p = .drv2Wait) :
    KeptUnder (fun e => e ≠ .reset ∧ e ≠ .aesAnswer ∧ ∀ r, e ≠ .aesResp r) fun s => s.ph = p := by
  rintro s t e rest ⟨hreset, hanswer, hresp⟩ hs he
  have hawaits : AwaitsAnswer (s.withAgenda rest) := by
    rw [← hs] at hp
    exact hp
  have hidle : s.ph ≠ .idle := by
    rcases hp with rfl | rfl | rfl <;> simp [hs]
  rcases he.ph_of_ne_idle hidle with h | h | ⟨h, -⟩ | ⟨-, h | ⟨r, h⟩⟩
  · exact h.trans hs
  · exact absurd h hreset
  · exact absurd hawaits (not_awaitsAnswer_of_aReqValid h)
  · exact absurd h hanswer
  · exact absurd h (hresp r)

theorem fault_kept : KeptUnder (fun e => e ≠ .reset) fun s => s.ph = .fault := by
  intro s t e rest hreset hs he
  rcases he.ph_of_ne_idle (by simp [hs]) with h | h | ⟨h, -⟩ | ⟨h, -⟩
  · exact h.trans hs
  · exact absurd h hreset
  · simp [aReqValid, hs] at h
  · simp [AwaitsAnswer, hs] at h

/-- An output is offered and not yet taken (R65). -/
structure Offers (dk : Bytes 32) (nonce : Bytes 24) (s : State) : Prop where
  ph : s.ph = .idle
  dkv : s.dkv = true
  dk : s.dk = dk
  nonce : s.nonce = nonce

/-- While an output is offered no key is loaded and nothing is derived (V1), so only the consumer, FLUSH, ZEROIZE
and reset end the offer (R233). -/
theorem offer_kept (dk : Bytes 32) (nonce : Bytes 24) :
    KeptUnder (fun e => e ≠ .reset ∧ e ≠ .take ∧ e ≠ .hostWrite 2 4 ∧ e ≠ .hostWrite 2 5)
      (Offers dk nonce) := by
  rintro s t e rest ⟨hreset, htake, hflush, hzeroize⟩ hs he
  cases he with
  | keyStarted _ hd | sealTrapped _ hd | deriveStarted _ _ hd => cases hs.dkv.symm.trans hd
  | flushed => exact absurd rfl hflush
  | zeroized => exact absurd rfl hzeroize
  | delivered => exact absurd rfl htake
  | reset => exact absurd rfl hreset
  | initReq hp | drv1Req hp | drv2Req hp | initResp hp | drv1Resp hp | drv2Resp hp => cases hs.ph.symm.trans hp
  | initAnswer _ hp | drv1Answer _ hp | drv2Answer _ hp => cases hs.ph.symm.trans hp
  | _ => exact { hs with }

/-- Settles O53: each of the four waiting conditions is kept by every event that is not one of its own. -/
theorem hangsLastUntilTheirEvent : Obligations.HangsLastUntilTheirEvent := by
  unfold Obligations.HangsLastUntilTheirEvent
  intro s es rest ha hreset
  obtain ⟨t, hrun, hagenda, hkeeps⟩ := run_events es ha
  have ne_of_notMem {x : Event} (hx : x ∉ es) : ∀ e ∈ es, e ≠ x := fun _ he => ne_of_mem_of_not_mem he hx
  refine ⟨t, hrun, hagenda, fun hreq haccept => ?_, fun hp hanswer hresp => ?_,
    fun hp hd htake hflush hzeroize => ?_, hkeeps _ _ fault_kept (ne_of_notMem hreset)⟩
  · exact hkeeps _ _ (request_kept ((aReqValid_iff s).mp hreq))
      (fun e he => ⟨ne_of_notMem hreset e he, ne_of_notMem haccept e he⟩) rfl
  · exact hkeeps _ _ (awaited_kept hp)
      (fun e he => ⟨ne_of_notMem hreset e he, ne_of_notMem hanswer e he,
        fun r => ne_of_notMem (hresp r) e he⟩) rfl
  · have hoffer := hkeeps _ _ (offer_kept s.dk s.nonce)
      (fun e he => ⟨ne_of_notMem hreset e he, ne_of_notMem htake e he, ne_of_notMem hflush e he,
        ne_of_notMem hzeroize e he⟩) ⟨hp, hd, rfl, rfl⟩
    exact ⟨hoffer.ph, hoffer.dkv, hoffer.dk, hoffer.nonce⟩

/-! ### Only a command starts an operation -/

theorem not_busy_kept : KeptUnder (fun e => ∀ v, e ≠ .hostWrite 2 v) fun s => s.ph.busy = false := by
  intro s t e rest hcmd hs he
  cases he with
  | keyStarted | deriveStarted => exact absurd rfl (hcmd _)
  | initReq hp | drv1Req hp | drv2Req hp | drv1Resp hp | drv1Answer _ hp =>
    rw [show s.ph = _ from hp] at hs
    cases hs
  | sealTrapped | initResp | drv2Resp | initAnswer | drv2Answer | reset => rfl
  | _ => exact hs

/-- Settles O54: of the events only a CMD write leads from IDLE or FAULT to a busy phase. -/
theorem notBusyLastsUntilTheNextCommand : Obligations.NotBusyLastsUntilTheNextCommand := by
  unfold Obligations.NotBusyLastsUntilTheNextCommand
  intro s es rest hb ha hcmd
  obtain ⟨t, hrun, hagenda, hkeeps⟩ := run_events es ha
  exact ⟨t, hrun, hkeeps _ _ not_busy_kept (fun _ he v => ne_of_mem_of_not_mem he (hcmd v)) hb, hagenda⟩

end Sys2Proof.Machine

/-! SUPPORT. Whole operations as runs: bytes pushed one after the other (10_state.md R21, R22), LOADKEY
(40_doubler_and_blocks.md R110), a derivation and its delivery, and all of them in a row (R111). -/

namespace Sys2Proof.Machine

/-! ### Pushing a list of bytes -/

/-- The buffer holds the pushed bytes, the first 32 of them stored and their number saturated at 63 (R21, R22). -/
structure Collected (bs : List Byte) (s : State) : Prop where
  ilen : s.ilen.toNat = min bs.length 63
  ibuf : ∀ (j : Nat) (h : j < 32), s.ibuf[j] = bs.getD j 0

theorem collected_nil {s : State} (hl : s.ilen = 0) (hb : s.ibuf = zeros 32) : Collected [] s where
  ilen := by simp [hl]
  ibuf j h := by simp [hb]

theorem Collected.pushExamined {bs : List Byte} {s : State} (h : Collected bs s) (b : Byte) :
    Collected (bs ++ [b]) (pushExamined b s) where
  ilen := by
    rw [pushExamined_ilen, toNat_countedPush, h.ilen, List.length_append, List.length_singleton]
    omega
  ibuf j hj := by
    have hat : j = s.ilen.toNat ↔ j = bs.length := by
      rw [h.ilen]
      omega
    rw [pushExamined_ibuf, getElem_storedByte, h.ibuf j hj]
    simp only [hat]
    rcases lt_trichotomy j bs.length with hlt | rfl | hgt
    · rw [if_neg hlt.ne, List.getD_append _ _ _ _ hlt]
    · simp
    · have hlen : (bs ++ [b]).length ≤ j := by simpa using hgt
      rw [if_neg hgt.ne', List.getD_eq_default _ _ hgt.le, List.getD_eq_default _ _ hlen]

theorem step_push_idle {s : State} {b : Byte} {rest : List Event} (ha : s.agenda = writeOp (.push b) :: rest)
    (hp : s.ph = .idle) :
    step s = .next (pushExamined b ((s.withAgenda rest).record (.hostWrite 3 (encode (.push b)).2))) := by
  rw [step_hostWrite_of_decode_ok ha (decode_encode (.push b))]
  exact exec_push_idle (s := (s.withAgenda rest).record _) hp b

theorem SameBlock.trans {s t u : State} (hst : SameBlock s t) (htu : SameBlock t u) : SameBlock s u where
  ibuf := hst.ibuf.trans htu.ibuf
  ilen := hst.ilen.trans htu.ilen
  masterKey := hst.masterKey.trans htu.masterKey
  k1 := hst.k1.trans htu.k1
  nonce := hst.nonce.trans htu.nonce
  dk := hst.dk.trans htu.dk
  kv := hst.kv.trans htu.kv
  dkv := hst.dkv.trans htu.dkv
  ovr := hst.ovr.trans htu.ovr
  err := hst.err.trans htu.err
  fcause := hst.fcause.trans htu.fcause
  ph := hst.ph.trans htu.ph

/-- One push in IDLE adds its byte and touches nothing of the block but the buffer and its count. -/
theorem step_push_collects {s : State} {as : List Byte} {b : Byte} {rest : List Event} (hp : s.ph = .idle)
    (hc : Collected as s) (ha : s.agenda = writeOp (.push b) :: rest) :
    ∃ t, step s = .next t ∧ t.agenda = rest ∧ Collected (as ++ [b]) t ∧
      SameBlock t { s with ibuf := t.ibuf, ilen := t.ilen } := by
  have hrecorded : Collected as ((s.withAgenda rest).record (.hostWrite 3 (encode (.push b)).2)) := { hc with }
  exact ⟨_, step_push_idle ha hp, rfl, hrecorded.pushExamined b,
    ⟨rfl, rfl, rfl, rfl, rfl, rfl, rfl, rfl, rfl, rfl, rfl, rfl⟩⟩

theorem run_pushes (bs : List Byte) {as : List Byte} {s : State} {rest : List Event} (hp : s.ph = .idle)
    (hc : Collected as s) (ha : s.agenda = lineEvents (.pushs bs) ++ rest) :
    ∃ t, Host.Core.run Sys2Proof.core bs.length s = .next t ∧ t.agenda = rest ∧ Collected (as ++ bs) t ∧
      SameBlock t { s with ibuf := t.ibuf, ilen := t.ilen } := by
  induction bs generalizing as s with
  | nil => exact ⟨s, rfl, ha, by rwa [List.append_nil], sameBlock_setEnvironment s _ _ _⟩
  | cons b bs ih =>
    obtain ⟨u, hu, hagendau, hcu, hsu⟩ := step_push_collects (rest := lineEvents (.pushs bs) ++ rest) hp hc ha
    obtain ⟨t, ht, hagenda, hct, hst⟩ := ih (hsu.ph.trans hp) hcu hagendau
    rw [List.append_assoc] at hct
    exact ⟨t, (run_succ hu _).trans ht, hagenda, hct, hst.trans { hsu with ibuf := rfl, ilen := rfl }⟩

theorem run_pushes_of_empty (bs : List Byte) {s : State} {rest : List Event} (hp : s.ph = .idle)
    (hl : s.ilen = 0) (hb : s.ibuf = zeros 32) (ha : s.agenda = lineEvents (.pushs bs) ++ rest) :
    ∃ t, Host.Core.run Sys2Proof.core bs.length s = .next t ∧ t.agenda = rest ∧ Collected bs t ∧
      SameBlock t { s with ibuf := t.ibuf, ilen := t.ilen } :=
  run_pushes bs hp (collected_nil hl hb) ha

/-- Settles O55: each push adds its byte to what the buffer has collected. -/
theorem pushedBytesCollectInOrder : Obligations.PushedBytesCollectInOrder := by
  unfold Obligations.PushedBytesCollectInOrder
  intro bs s rest hp hl hb ha
  obtain ⟨t, hrun, hagenda, hc, hsame⟩ := run_pushes_of_empty bs hp hl hb ha
  exact ⟨t, hrun, hagenda, hc.ilen, hc.ibuf, hsame⟩

/-! ### The engine's two steps -/

theorem engineReady_agenda (s : State) : (engineReady s).agenda = s.agenda := by
  rcases engineReady_cases s with ⟨-, g⟩ | ⟨-, g⟩ | ⟨-, g⟩ | ⟨-, -, -, g⟩ <;> rw [g]
  iterate 3 rfl

theorem engineReady_withAgenda (s : State) (es : List Event) :
    (engineReady s).withAgenda es = engineReady (s.withAgenda es) := by
  unfold engineReady
  rw [State.withAgenda_ph]
  cases s.ph <;> rfl

/-- An acceptance and an answer scheduled in a request phase are the fused AES call (R159). -/
theorem run_aesCall {s : State} {rest : List Event} (ha : s.agenda = .aesAccept :: .aesAnswer :: rest)
    (h : aReqValid s = true) :
    Host.Core.run Sys2Proof.core 2 s = .next (aesCall (s.withAgenda rest)) := by
  have hanswer := step_aesAnswer (s := engineReady (s.withAgenda (.aesAnswer :: rest))) (engineReady_agenda _)
  rw [engineReady_withAgenda] at hanswer
  rw [run_two (step_aesAccept ha) hanswer]
  exact congrArg _ (engineAnswers_engineReady (s := s.withAgenda rest) h)

/-! ### LOADKEY -/

/-- What an accepted LOADKEY leaves (R123). -/
def startLoading (s : State) : State :=
  { s.consume with masterKey := s.ibuf, k1 := zeros 16, kv := false, err := 0, ph := .initReq }

theorem step_loadkey_accepted {s : State} {rest : List Event} (ha : s.agenda = writeOp .loadkey :: rest)
    (hp : s.ph = .idle) (hd : s.dkv = false) (hl : s.ilen = 32) :
    step s = .next (startLoading ((s.withAgenda rest).record (.hostWrite 2 1))) := by
  rw [step_hostWrite_of_decode_ok ha (decode_encode .loadkey)]
  obtain ⟨-, -, haccepted⟩ := loadkeyByCases ((s.withAgenda rest).record (.hostWrite 2 1)) hp
  exact haccepted hd hl

/-- Settles O56: the accepted command, then one fused AES call. -/
theorem loadkeyBuildsTheSubkey : Obligations.LoadkeyBuildsTheSubkey := by
  unfold Obligations.LoadkeyBuildsTheSubkey
  intro s rest hp hd hl ha
  have hcall := run_aesCall (rest := rest)
    (s := startLoading ((s.withAgenda (.aesAccept :: .aesAnswer :: rest)).record (.hostWrite 2 1))) rfl rfl
  rw [aesCall_initReq rfl] at hcall
  exact ⟨_, (run_succ (step_loadkey_accepted ha hp hd hl) 2).trans hcall,
    rfl, rfl, rfl, rfl, rfl, rfl, rfl, hd, rfl, rfl, rfl⟩

/-! ### A derivation and its delivery -/

theorem step_derive_accepted {s : State} {op : Instr} {rest : List Event}
    (hop : op = .deriveSeal ∨ op = .deriveOpen) (ha : s.agenda = writeOp op :: rest) (hp : s.ph = .idle)
    (hd : s.dkv = false) (hk : s.kv = true) (hl : s.ilen = 24) :
    step s = .next (startDerivation ((s.withAgenda rest).record (.hostWrite 2 (encode op).2))) := by
  rw [step_hostWrite_of_decode_ok ha (decode_encode op)]
  rcases hop with rfl | rfl
  · exact (exec_deriveSeal_idle (s := (s.withAgenda rest).record (.hostWrite 2 2)) hp).trans
      (congrArg _ (deriveExamined_of_accepted _ hd hk hl))
  · exact (exec_deriveOpen_idle (s := (s.withAgenda rest).record (.hostWrite 2 3)) hp).trans
      (congrArg _ (deriveExamined_of_accepted _ hd hk hl))

/-- The two answers together are all of DK, whatever it held before (R154, R156). -/
theorem withHighHalf_withLowHalf (dk : Bytes 32) (r1 r2 : Bytes 16) :
    withHighHalf (withLowHalf dk r1) r2 = joinBytes r1 r2 := by
  apply Vector.ext
  intro i hi
  by_cases h : i < 16
  · rw [getElem_withHighHalf_of_lt _ _ i h, getElem_withLowHalf_of_lt _ _ i h, getElem_joinBytes, dif_pos h]
  · obtain ⟨k, rfl⟩ := Nat.exists_eq_add_of_le (Nat.le_of_not_lt h)
    rw [getElem_withHighHalf_add _ _ k (by omega), getElem_joinBytes, dif_neg h]
    simp only [Nat.add_sub_cancel_left]

/-- The two AES calls of a derivation, one after the other (R153 to R156). -/
theorem aesCall_aesCall {s : State} (hp : s.ph = .drv1Req) :
    aesCall (aesCall s) =
      seqDrv2Resp (Config.AESENC s.masterKey (requestX .second s)) (afterCall (requestX .second s)
        (seqDrv1Resp (Config.AESENC s.masterKey (requestX .first s)) (afterCall (requestX .first s) s))) := by
  rw [aesCall_drv1Req hp, aesCall_drv2Req rfl]
  rfl

/-- What a derivation of the nonce in NONCE and its delivery leave of the block, and what crosses the ports. -/
theorem delivered_spec {s : State} (hp : s.ph = .drv1Req) :
    SameBlock (consumerReady (aesCall (aesCall s)))
      { s with dk := zeros 32, nonce := zeros 24, dkv := false, ph := .idle } ∧
    (consumerReady (aesCall (aesCall s))).agenda = s.agenda ∧
    (consumerReady (aesCall (aesCall s))).trace =
      .deliver (derive s.masterKey s.k1 s.nonce).1 (derive s.masterKey s.k1 s.nonce).2 ::
      .aesResp (Config.AESENC s.masterKey (requestX .second s)) :: .aesReq s.masterKey (requestX .second s) ::
      .aesResp (Config.AESENC s.masterKey (requestX .first s)) :: .aesReq s.masterKey (requestX .first s) ::
      s.trace := by
  rw [aesCall_aesCall hp, consumerReady_of_dkv rfl]
  refine ⟨?_, by simp, ?_⟩
  · constructor <;> simp
  · simp [withHighHalf_withLowHalf, derive, requestX]

theorem aesCall_agenda (s : State) : (aesCall s).agenda = s.agenda := by
  unfold aesCall
  cases s.ph <;> rfl

theorem aesCall_withAgenda (s : State) (es : List Event) :
    (aesCall s).withAgenda es = aesCall (s.withAgenda es) := by
  unfold aesCall
  rw [State.withAgenda_ph]
  cases s.ph <;> rfl

/-- The engine's four steps and the consumer's one, from the start of a derivation. -/
theorem run_derivation {s : State} {rest : List Event} (hp : s.ph = .drv1Req)
    (ha : s.agenda = [.aesAccept, .aesAnswer, .aesAccept, .aesAnswer, .take] ++ rest) :
    Host.Core.run Sys2Proof.core 5 s = .next (consumerReady (aesCall (aesCall (s.withAgenda rest)))) := by
  have hreq : aReqValid s = true := (aReqValid_iff s).mpr (.inr (.inl hp))
  have hreq2 (es : List Event) : aReqValid (aesCall (s.withAgenda es)) = true := by
    rw [aesCall_drv1Req (s := s.withAgenda es) hp]
    rfl
  have hfirst := run_aesCall (rest := [.aesAccept, .aesAnswer, .take] ++ rest) ha hreq
  have hsecond := run_aesCall (rest := .take :: rest) (aesCall_agenda _) (hreq2 _)
  have htake := step_take (rest := rest) (s := aesCall (aesCall (s.withAgenda (.take :: rest))))
    ((aesCall_agenda _).trans (aesCall_agenda _))
  simp only [aesCall_withAgenda] at hsecond htake
  exact (run_add hfirst 3).trans ((run_add hsecond 1).trans (run_succ htake 0))

/-- Settles O57: the accepted command takes the nonce from IBUF, and the derivation runs from there. -/
theorem derivationDelivers : Obligations.DerivationDelivers := by
  unfold Obligations.DerivationDelivers
  rintro s op N rest hop rfl hp hd hk hl ha
  have hstart := step_derive_accepted hop ha hp hd hk hl
  obtain ⟨hsame, hagenda, htrace⟩ := delivered_spec
    (s := startDerivation ((s.withAgenda rest).record (.hostWrite 2 (encode op).2))) rfl
  exact ⟨_, (run_succ hstart 5).trans (run_derivation (rest := rest) rfl rfl),
    { hsame with ph := hsame.ph.trans hp.symm }, hagenda, htrace⟩

/-! ### The complete function of the block -/

theorem Collected.keyOperand {B : Bytes 32} {s : State} (h : Collected B.toList s) :
    s.ilen = 32 ∧ s.ibuf = B := by
  constructor
  · apply BitVec.eq_of_toNat_eq
    rw [h.ilen]
    simp
  · apply Vector.ext
    intro i hi
    rw [h.ibuf i hi]
    simp [hi]

theorem Collected.nonceOperand {B : Bytes 24} {s : State} (h : Collected B.toList s) :
    s.ilen = 24 ∧ slice s.ibuf 0 24 = B := by
  constructor
  · apply BitVec.eq_of_toNat_eq
    rw [h.ilen]
    simp
  · apply Vector.ext
    intro i hi
    rw [getElem_slice _ 0 24 _ i hi, h.ibuf _ (by omega)]
    simp [hi]

/-- Settles O58: the key is pushed and loaded, the nonce is pushed, and the derivation delivers. -/
theorem blockComputesTheKeyDerivation : Obligations.BlockComputesTheKeyDerivation := by
  unfold Obligations.BlockComputesTheKeyDerivation
  intro s MK N op rest hop hp hd hl hb ha
  simp only [List.append_assoc] at ha
  obtain ⟨a, hruna, hagendaa, hca, hsa⟩ := run_pushes_of_empty MK.toList hp hl hb ha
  obtain ⟨hla, hba⟩ := hca.keyOperand
  obtain ⟨b, hrunb, hkvb, hmkb, hk1b, hpb, -, hlb, hbb, hdb, -, hagendab, -⟩ :=
    loadkeyBuildsTheSubkey a _ (hsa.ph.trans hp) (hsa.dkv.trans hd) hla hagendaa
  obtain ⟨c, hrunc, hagendac, hcc, hsc⟩ := run_pushes_of_empty N.toList hpb hlb hbb hagendab
  obtain ⟨hlc, hbc⟩ := hcc.nonceOperand
  have hpc : c.ph = .idle := hsc.ph.trans hpb
  have hkvc : c.kv = true := hsc.kv.trans hkvb
  have hmkc : c.masterKey = MK := (hsc.masterKey.trans hmkb).trans hba
  have hk1c : c.k1 = subkey MK := (hsc.k1.trans hk1b).trans (congrArg subkey hba)
  obtain ⟨t, hrunt, hst, hagendat, htrace⟩ :=
    derivationDelivers c op N rest hop hbc.symm hpc (hsc.dkv.trans hdb) hkvc hlc hagendac
  rw [Vector.length_toList] at hruna hrunc
  rw [hmkc, hk1c] at htrace
  exact ⟨t, (run_add hruna 33).trans ((run_add hrunb 30).trans ((run_add hrunc 6).trans hrunt)),
    congrArg List.head? htrace, hagendat, hst.ph.trans hpc, hst.kv.trans hkvc, hst.dkv, hst.err,
    hst.masterKey.trans hmkc, hst.k1.trans hk1c, hst.ilen, hst.ibuf, hst.dk, hst.nonce⟩

end Sys2Proof.Machine
